-- ==== Sys2Proof/Word.lean ====
section
/-! DEFINITION. The word types of the ZQ480: one name for each width the manual's layouts use
(spec/01_desk_link.md, section 1.10). -/

namespace Sys2Proof

/-- One byte of a parcel. -/
abbrev Byte := BitVec 8

/-- Half a byte: a parcel kind, a target, a sub field. -/
abbrev Nibble := BitVec 4

/-- A station number 0..15; 0 is no station (or all stations, as a target). -/
abbrev Station := BitVec 4

/-- A 24-bit instrument key. -/
abbrev Key := BitVec 24

/-- A 16-bit tick sequence number, counted modulo 65536. -/
abbrev Seq := BitVec 16

/-- A 32-bit sweep number; it wraps modulo 2^32. -/
abbrev Sweep := BitVec 32

/-- A lap index 0..1023; 1023 is followed by 0. -/
abbrev Lap := BitVec 10

/-- A slot number 0..63 of a sweep. -/
abbrev Slot := BitVec 6

/-- A glyph code 0..511 of the character generator. -/
abbrev Glyph := BitVec 9

/-- A palette index 0..15. -/
abbrev Colour := BitVec 4

/-- A text: glyph codes 0..255, leftmost first. -/
abbrev Text := List Byte

end Sys2Proof
end

