-- ==== Sys2Proof/Syntax.lean ====
section
/-! DEFINITION. The commands of the ZQ480, one constructor for each row of
spec/opcode_table.json, with the operands the manual gives the event: the frame and the body
fields of a parcel (spec/01_desk_link.md, section 1.10), or the bit time at which an edge falls.

Raw field widths are kept, so a value that the manual refuses or clamps (a window byte of 200, a
format code of 7) is an ordinary operand. -/

namespace Sys2Proof

/-- The levels of the strap pins (R194). -/
structure Straps where
  sn   : BitVec 4
  sr   : BitVec 2
  gm   : BitVec 2
  cr   : BitVec 2
  cf   : BitVec 4
  srow : Bool
deriving DecidableEq, Repr

/-- What the link tells of a received parcel besides its body: the slot it arrived in, its
origin and its target nibble (R19). The CRC has been found good. -/
structure Rx where
  slot   : Slot
  origin : Station
  target : Nibble
deriving DecidableEq, Repr

/-- The two kinds that are counted and not dispatched (R21). -/
inductive IgnoredKind where
  | refresh
  | status
deriving DecidableEq, Repr

/-- The command codes outside 1..10 (R21). -/
inductive BadCommandCode where
  | c0
  | c11
  | c12
  | c13
  | c14
  | c15
deriving DecidableEq, Repr

/-- The record kinds outside 1..9 (R94). -/
inductive BadRecordKind where
  | k0
  | k10
  | k11
  | k12
  | k13
  | k14
  | k15
deriving DecidableEq, Repr

/-- The body of a PRESENCE (R22, PRESENCE table). -/
structure PresenceBody where
  kind       : Byte
  role       : Byte
  originHeld : Byte
  lapListen  : Bool
deriving DecidableEq, Repr

/-- One item entry of a TICK. -/
structure TickItem where
  code  : Nibble
  scale : BitVec 3
  value : BitVec 32
deriving DecidableEq, Repr

/-- The sub nibble and body of a TICK; `items` holds the four item entries of the parcel. -/
structure TickBody where
  sub   : Nibble
  key   : Key
  seq   : Seq
  count : Byte
  items : List TickItem
deriving DecidableEq, Repr

/-- The body of a HANDOFF. -/
structure HandoffBody where
  tag   : Byte
  glyph : Glyph
  fg    : Colour
  bg    : Colour
  blink : Bool
deriving DecidableEq, Repr

/-- The body of a CRAWLTEXT; `chars` holds the 24 character codes of the parcel. -/
structure CrawlTextBody where
  count : Byte
  fg    : Colour
  bg    : Colour
  blink : Bool
  chars : List Byte
deriving DecidableEq, Repr

/-- One entry of a FIELD record, as sent. -/
structure FieldEntry where
  page         : BitVec 5
  row          : BitVec 6
  column       : Byte
  width        : BitVec 6
  key          : Key
  item         : Nibble
  format       : BitVec 3
  policy       : BitVec 3
  param        : Nibble
  throttle     : Byte
  fg           : Colour
  bg           : Colour
  justifyRight : Bool
  plus         : Bool
  grouping     : Bool
  subst        : BitVec 2
  blink        : Bool
  localMark    : Bool
deriving DecidableEq, Repr

/-- A FIELD record, as sent. -/
structure FieldRecord where
  atPointer : Bool
  start     : BitVec 9
  count     : Byte
  first     : FieldEntry
  second    : FieldEntry
deriving DecidableEq, Repr

/-- A LABEL record, as sent; `chars` holds the 20 codes of the parcel. -/
structure LabelRecord where
  run     : BitVec 16
  page    : BitVec 5
  row     : BitVec 6
  column  : Byte
  length  : Byte
  charset : Nibble
  blink   : Bool
  fg      : Colour
  bg      : Colour
  chars   : List Byte
deriving DecidableEq, Repr

/-- A WINDOW record, as sent. -/
structure WindowRecord where
  window     : Byte
  top        : Byte
  height     : Byte
  background : Colour
  page       : Byte
deriving DecidableEq, Repr

/-- A POLICY record, as sent. -/
structure PolicyRecord where
  policy     : Byte
  mode       : Byte
  hold       : BitVec 16
  upFg       : Colour
  upBg       : Colour
  downFg     : Colour
  downBg     : Colour
  upStick    : Colour
  downStick  : Colour
  touchFg    : Colour
  touchBg    : Colour
  touch      : Bool
  blinkFlash : Bool
deriving DecidableEq, Repr

/-- A PALETTE record, as sent. -/
structure PaletteRecord where
  entry : Byte
  red   : Byte
  green : Byte
  blue  : Byte
deriving DecidableEq, Repr

/-- A CONDLABEL record, as sent; `chars` holds its six glyph codes. -/
structure CondLabelRecord where
  code  : Byte
  chars : List Byte
deriving DecidableEq, Repr

/-- A CAROUSEL record, as sent. -/
structure CarouselRecord where
  window : Byte
  step   : Byte
  page   : Byte
  dwell  : BitVec 12
deriving DecidableEq, Repr

/-- A CRAWLPROG record, as sent; `chars` holds its eight glyph codes. -/
structure CrawlProgRecord where
  entry      : Byte
  keyPresent : Bool
  key        : Key
  chars      : List Byte
deriving DecidableEq, Repr

/-- A GLOBAL record, as sent. -/
structure GlobalRecord where
  staleLimit : BitVec 16
  staleFg    : Colour
  gapFg      : Colour
  interval   : Byte
  crawlFg    : Colour
  crawlBg    : Colour
  blinkCode  : Byte
  blinkDuty  : Byte
  sync       : BitVec 2
  clash      : BitVec 2
  silent     : BitVec 2
  orphan     : BitVec 2
  drop       : BitVec 2
  underrun   : BitVec 2
  foreign    : BitVec 2
deriving DecidableEq, Repr

/-- The commands of the block, in the order of spec/opcode_table.json. A bit time operand is the
count of bit times since the sweep timer's latest restart (R1). -/
inductive Instr where
  /-- RESETN_ASSERT (R5). -/
  | resetnAssert
  /-- RESETN_RELEASE (R5): the strap levels, and whether DLS is already low. -/
  | resetnRelease (straps : Straps) (dlsLow : Bool)
  /-- LISTEN_PERIOD_EXPIRY (R5). -/
  | listenPeriodExpiry
  /-- SWEEP_MARK_RECOGNISED (R2): the bit time of the falling edge. -/
  | sweepMarkRecognised (edge : Nat)
  /-- MARK_CLASSIFIED (R2): the low time of DLS in bit times. -/
  | markClassified (low : Nat)
  /-- STUCK_LINE (R9). -/
  | stuckLine
  /-- SWEEP_TIMER_EXPIRY (R3). -/
  | sweepTimerExpiry
  /-- FREE_RUN_EXPIRY (R4). -/
  | freeRunExpiry
  /-- STUCK_TIMER_EXPIRY (R10). -/
  | stuckTimerExpiry
  /-- LAP_LISTEN_END (R7). -/
  | lapListenEnd
  /-- HOME_SLOT_TRANSMIT (R13). -/
  | homeSlotTransmit
  /-- HOME_SLOT_CLASH (R14). -/
  | homeSlotClash
  /-- OPEN_SLOT_ATTEMPT (R16): the open slot that begins. -/
  | openSlotAttempt (slot : Slot)
  /-- OPEN_SLOT_OUTCOME (R17): the bit of the first readback mismatch, if any. -/
  | openSlotOutcome (mismatch : Option Byte)
  /-- HOME_SLOT_REPORT (R24): the home slot that ends. -/
  | homeSlotReport (station : Station)
  /-- CRC_ERROR (R18): a truncated parcel or a failed CRC in a slot. -/
  | crcError (slot : Slot)
  /-- MALFORMED_PARCEL (R19): a parcel of kind 0, of an unlisted kind, or with origin 0. -/
  | malformedParcel (slot : Slot)
  /-- GOOD_PARCEL_IGNORED (R21): a REFRESH or STATUS from the link. -/
  | goodParcelIgnored (rx : Rx) (kind : IgnoredKind)
  /-- PRESENCE (R25). -/
  | presence (rx : Rx) (body : PresenceBody)
  /-- MARK (R29): sub bit 0 set or clear. -/
  | mark (rx : Rx) (sub : Nibble) (key : Key)
  /-- TICK (R37). -/
  | tick (rx : Rx) (body : TickBody)
  /-- INTAKE_TAKE (R49). -/
  | intakeTake
  /-- COMMAND_BAD_CODE (R21). -/
  | commandBadCode (rx : Rx) (code : BadCommandCode)
  /-- SHOW (R150): the window and page bytes. -/
  | showPage (rx : Rx) (window page : Byte)
  /-- RELEASE (R151). -/
  | release (rx : Rx) (window : Byte)
  /-- RUN (R152). -/
  | run (rx : Rx) (window : Byte)
  /-- HALT (R153). -/
  | halt (rx : Rx) (window : Byte)
  /-- FREEZE (R134). -/
  | freeze (rx : Rx) (window : Byte)
  /-- THAW (R136). -/
  | thaw (rx : Rx) (window : Byte)
  /-- OVERRIDE (R137): the window and mode bytes. -/
  | override (rx : Rx) (window mode : Byte)
  /-- CRAWL_FLUSH (R170). -/
  | crawlFlush (rx : Rx)
  /-- COUNTER_CLEAR (R204). -/
  | counterClear (rx : Rx)
  /-- LAYOUT_CLEAR (R114). -/
  | layoutClear (rx : Rx)
  /-- LAYOUT_BAD_KIND (R94). -/
  | layoutBadKind (rx : Rx) (kind : BadRecordKind)
  /-- FIELD (R98). -/
  | field (rx : Rx) (body : FieldRecord)
  /-- LABEL (R101). -/
  | label (rx : Rx) (body : LabelRecord)
  /-- WINDOW (R104). -/
  | window (rx : Rx) (body : WindowRecord)
  /-- POLICY (R106). -/
  | policy (rx : Rx) (body : PolicyRecord)
  /-- PALETTE (R107). -/
  | palette (rx : Rx) (body : PaletteRecord)
  /-- CONDLABEL (R108). -/
  | condlabel (rx : Rx) (body : CondLabelRecord)
  /-- CAROUSEL (R109). -/
  | carousel (rx : Rx) (body : CarouselRecord)
  /-- CRAWLPROG (R110). -/
  | crawlprog (rx : Rx) (body : CrawlProgRecord)
  /-- GLOBAL (R111). -/
  | global (rx : Rx) (body : GlobalRecord)
  /-- HANDOFF (R165). -/
  | handoff (rx : Rx) (body : HandoffBody)
  /-- CRAWLTEXT (R169). -/
  | crawltext (rx : Rx) (body : CrawlTextBody)
  /-- CRAWL_STEP (R160). -/
  | crawlStep
  /-- STALE_EXPIRY (R66). -/
  | staleExpiry
  /-- REFRESH_DEADLINE (R70). -/
  | refreshDeadline
  /-- PENDING_RELEASE (R120). -/
  | pendingRelease
  /-- HIGHLIGHT_EXPIRY (R132). -/
  | highlightExpiry
  /-- DWELL_EXPIRY (R149): the window whose carousel's dwell runs out. -/
  | dwellExpiry (window : BitVec 3)
  /-- LAP_START (R199). -/
  | lapStart
  /-- PAINT_SERVICE (R118). -/
  | paintService
  /-- PAINT_COMMIT (R123). -/
  | paintCommit
  /-- PORT_GRANT (R180). -/
  | portGrant
  /-- TRANSFER_COMPLETE (R181). -/
  | transferComplete
  /-- FRAME_START (R189). -/
  | frameStart
  /-- ROW_FETCH (R183). -/
  | rowFetch
  /-- STUCK_LINE_RISING_EDGE (R10): the bit time of the rising edge. -/
  | stuckLineRisingEdge (edge : Nat)
  /-- UNRECOGNISED_FALLING_EDGE (R10): the bit time of the falling edge. -/
  | unrecognisedFallingEdge (edge : Nat)
deriving DecidableEq, Repr

end Sys2Proof
end

