-- ==== Sys2Proof/Config.lean ====
section
/-! DEFINITION. What the manual leaves to the part: the constants it does not give. An `opaque`
constant has no body, so a statement about it holds whatever its value is. -/

namespace Sys2Proof

/-- The strap levels the model's own reset state is made with: painter 6 of the worked sequences of
spec/06_layout_records.md (GM 00, SROW 1, crawl role HEAD). Any levels are accepted (R194), and
RESETN_RELEASE takes them as an operand. DESIGN CHOICE, unsafe (assumption 1). -/
def Config.resetStraps : Straps :=
  { sn := 6, sr := 0, gm := 0, cr := 1, cf := 0, srow := true }

/-- The character generator's pattern of a glyph's scan line, pixel 0 in the most significant bit
(R191 gives the patterns no bits but those `Machine.glyphRow` fixes). Free value
(assumption 11). -/
opaque Config.glyphPattern : Glyph → Nat → Byte

/-- Where the full-block glyph stands among the block graphics 0x180..0x1BF (R191). Free value
(assumption 11). -/
opaque Config.fullBlock : BitVec 6

/-- The rank by which one source switch takes its records; the manual gives the records of one
event no order (R67). Free value (assumption 9). -/
opaque Config.switchRank : Key → Nat

/-- What a running counter holds after a report at its limit of 2^32 − 1; the manual says that no
counter comes near it (R197). Free value (assumption 10). -/
opaque Config.counterPastLimit : BitVec 32

end Sys2Proof
end

