-- ==== Sys2Proof/Machine/Tables.lean ====
section
/-! DEFINITION. Sparse tables in one canonical form: lists of (index, value) pairs with strictly
rising indices. The cell plane and every indexed table of the part is held this way
(assumption 25), so equal contents are equal data. -/

namespace Sys2Proof.Machine

/-- A sparse table: the listed entries, indices strictly rising. -/
abbrev Tab (α : Type) := List (Nat × α)

/-- The entry listed at an index. -/
def Tab.look {α : Type} (k : Nat) : Tab α → Option α
  | [] => none
  | (i, v) :: t => if i = k then some v else Tab.look k t

/-- The value at an index, `d` where nothing is listed. -/
def Tab.get {α : Type} (d : α) (k : Nat) (t : Tab α) : α :=
  (Tab.look k t).getD d

/-- The table without its entry at an index. -/
def Tab.erase {α : Type} (k : Nat) : Tab α → Tab α
  | [] => []
  | (i, v) :: t => if i = k then Tab.erase k t else (i, v) :: Tab.erase k t

/-- An entry placed before the first entry of a higher index. -/
def Tab.place {α : Type} (k : Nat) (v : α) : Tab α → Tab α
  | [] => [(k, v)]
  | (i, w) :: t => if k < i then (k, v) :: (i, w) :: t else (i, w) :: Tab.place k v t

/-- The table with `v` at an index. -/
def Tab.insert {α : Type} (k : Nat) (v : α) (t : Tab α) : Tab α :=
  Tab.place k v (Tab.erase k t)

/-- The table with `v` at an index, unlisted where `v` is the value `d` of an unlisted index. -/
def Tab.put {α : Type} [DecidableEq α] (d : α) (k : Nat) (v : α) (t : Tab α) : Tab α :=
  if v = d then Tab.erase k t else Tab.insert k v t

/-- Every value changed by a function of its index and value. -/
def Tab.mapValues {α β : Type} (f : Nat → α → β) : Tab α → Tab β
  | [] => []
  | (i, v) :: t => (i, f i v) :: Tab.mapValues f t

/-- Every value changed, with those that become the value `d` of an unlisted index unlisted. -/
def Tab.mapPut {α : Type} [DecidableEq α] (d : α) (f : α → α) (t : Tab α) : Tab α :=
  (Tab.mapValues (fun _ v => f v) t).filter fun e => e.2 ≠ d

/-- The entries of a run of values from an index on, less those equal to the value `d`. -/
def Tab.ofRun {α : Type} [DecidableEq α] (d : α) (start : Nat) : List α → Tab α
  | [] => []
  | v :: vs => if v = d then Tab.ofRun d (start + 1) vs else (start, v) :: Tab.ofRun d (start + 1) vs

/-- The table with a run of values written from an index on. -/
def Tab.writeRun {α : Type} [DecidableEq α] (d : α) (start : Nat) (vs : List α) (t : Tab α) : Tab α :=
  t.filter (fun e => e.1 < start) ++ Tab.ofRun d start vs
    ++ t.filter (fun e => start + vs.length ≤ e.1)

/-- The canonical form: indices strictly rising. -/
def Tab.rising {α : Type} : Tab α → Bool
  | [] => true
  | [_] => true
  | (i, _) :: (j, w) :: t => decide (i < j) && Tab.rising ((j, w) :: t)

/-- The canonical form of a table whose unlisted indices hold `d`: indices strictly rising and no
entry equal to `d`. -/
def Tab.wf {α : Type} [DecidableEq α] (d : α) (t : Tab α) : Bool :=
  Tab.rising t && t.all (fun e => e.2 ≠ d)

/-- A set of numbers, strictly rising. -/
abbrev NatSet := List Nat

/-- The set with a number added. -/
def NatSet.insert (n : Nat) : NatSet → NatSet
  | [] => [n]
  | m :: s => if n < m then n :: m :: s else if n = m then m :: s else m :: NatSet.insert n s

/-- The set with a number taken out. -/
def NatSet.remove (n : Nat) (s : NatSet) : NatSet :=
  s.filter (fun m => m ≠ n)

/-- The set of the numbers of a list. -/
def NatSet.ofList (l : List Nat) : NatSet :=
  l.foldl (fun s n => NatSet.insert n s) []

end Sys2Proof.Machine
end

