-- ==== Sys2Proof/Machine/Types.lean ====
section
/-! DEFINITION. The pieces of state of the eleven blocks of the ZQ480 (spec/00_scope.md, section
1.3), as plain data. -/

namespace Sys2Proof.Machine

/-! ## Desk Link interface (LNK) -/

/-- The synchronisation states (spec/01_desk_link.md, section 1.4). -/
inductive Sync where
  | listen
  | follow
  | stuck
deriving DecidableEq, Repr

/-- The classes of a sweep mark that raise a sweep start (R2). -/
inductive MarkClass where
  | short
  | long
deriving DecidableEq, Repr

/-- A parcel as sent, less its CRC, which is a function of the rest (R18). `body` is 28 bytes. -/
structure Parcel where
  kind   : Nibble
  origin : Station
  target : Nibble
  sub    : Nibble
  body   : List Byte
deriving DecidableEq, Repr

/-- A parcel this station drives on DLD: in its home slot, or as an attempt in an open slot. -/
structure Tx where
  slot   : Nat
  home   : Bool
  parcel : Parcel
deriving DecidableEq, Repr

/-- The state of LNK. -/
structure Lnk where
  sync            : Sync
  /-- Bit times since the latest restart (R1), as of the latest timed event. -/
  timer           : Nat
  /-- Whether the timer has been restarted since RESETn release; the slot count is none until then. -/
  slotRunning     : Bool
  /-- A recognised mark has not been classified yet (R2). -/
  markInProgress  : Bool
  /-- A mute listener's slot 0 after a timer expiry, no mark recognised in it yet (R3). -/
  freeRunDue      : Bool
  /-- DLS was low at RESETn release and has not risen (R5). -/
  lowSinceRelease : Bool
  /-- Bit times for which DLS has been high without a break; none while it is low (R10). -/
  freeTime        : Option Nat
  /-- The mark this station drives on DLS. -/
  dls             : Option MarkClass
  /-- The parcel this station drives on DLD. -/
  dld             : Option Tx
  /-- The slot of this sweep in which this station last sent a parcel to the end (R19 step 3). -/
  sentSlot        : Option Nat
  /-- The slot of this sweep in which this station last began a parcel, however that parcel ended: it
  begins no second one there (R13, R14, R17). -/
  begunSlot       : Option Nat
  /-- Home slots of which a parcel of their own station has passed steps 1 to 3 of R19 since the
  slot began (R20). -/
  heard           : NatSet
  sweep           : Sweep
  lap             : Lap
  lapListen       : Bool
  /-- A long mark has been classified since RESETn release (R7). -/
  longSeen        : Bool
  /-- The open-slot transmit queue, head first (R15). -/
  txq             : List Parcel
deriving DecidableEq, Repr

/-! ## Peer table (PTB) -/

inductive PeerState where
  | absent
  | present
  | silent
deriving DecidableEq, Repr

inductive PeerKind where
  | unknown
  | feed
  | console
  | painter
  | other
deriving DecidableEq, Repr

/-- One peer entry (spec/02, section 2.1). -/
structure Peer where
  state  : PeerState
  kind   : PeerKind
  misses : Nat
deriving DecidableEq, Repr

/-- The state of PTB. An unlisted peer entry holds its reset value, an unlisted mark is none. -/
structure Ptb where
  peers  : Tab Peer
  marks  : Tab Key
  origin : Option Station
deriving DecidableEq, Repr

/-! ## Items and values -/

/-- The twelve stored items (spec/04, section 4.2). -/
inductive Item where
  | bid
  | ask
  | last
  | bsize
  | asize
  | volume
  | opening
  | high
  | low
  | close
  | time
  | condition
deriving DecidableEq, Repr

/-- The item selector of a field: a stored item or a derived one. -/
inductive Selector where
  | stored (item : Item)
  | netchg
  | pctchg
  | spread
deriving DecidableEq, Repr

/-- The contents of a value (R75). -/
inductive Content where
  | price (mantissa : Int) (scale : Nat)
  | percentage (mantissa : Int) (decimals : Nat)
  | size (n : Nat)
  | seconds (n : Nat)
  | code (n : Nat)
deriving DecidableEq, Repr

/-- A stored item with its clamped flag (R57). -/
structure Stored where
  content : Content
  clamped : Bool
deriving DecidableEq, Repr

/-- A value with its presence (R75). -/
inductive Value where
  | absent
  | clamped (c : Content)
  | present (c : Content)
deriving DecidableEq, Repr

/-- The answer of the direction request (R81). -/
inductive Direction where
  | up
  | down
  | equal
  | none
deriving DecidableEq, Repr

/-- The answer of the sign request (R82). -/
inductive Sign where
  | positive
  | negative
  | zero
  | none
deriving DecidableEq, Repr

/-! ## Tick intake (INQ) -/

/-- A received value: 32 bits and a scale, as received (R37). -/
structure Received where
  value : BitVec 32
  scale : BitVec 3
deriving DecidableEq, Repr

/-- One entry of the intake queue (spec/03, section 3.2). `items` is indexed by item code. -/
structure IntakeEntry where
  key        : Key
  origin     : Station
  firstSeq   : Seq
  lastSeq    : Seq
  items      : Tab Received
  imageStart : Bool
  imageEnd   : Bool
  gap        : Bool
  isOpen     : Bool
deriving DecidableEq, Repr

/-! ## Instrument directory (DIR) -/

inductive RecordState where
  | void
  | live
  | gapped
  | stale
  | orphaned
deriving DecidableEq, Repr

/-- An image in progress: its seen set of item codes and its image-gapped flag. -/
structure Image where
  seen   : NatSet
  gapped : Bool
deriving DecidableEq, Repr

/-- One instrument record (spec/04, section 4.1). `items` is indexed by item code. -/
structure Record where
  key       : Key
  state     : RecordState
  source    : Option Station
  alternate : Option Station
  lastSeq   : Option Seq
  items     : Tab Stored
  image     : Option Image
  deadline  : Option Sweep
  marks     : Nat
  refs      : Nat
deriving DecidableEq, Repr

/-- The state of a refresh request: WAITING, or SENT with its deadline. -/
inductive RefreshState where
  | waiting
  | sent (deadline : Sweep)
deriving DecidableEq, Repr

/-- One entry of the refresh request list (spec/04, section 4.7). `inPass` is the model's own: the
entry still waits for its turn in the pass of the present sweep start (R70, assumption 26). -/
structure RefreshEntry where
  key     : Key
  target  : Station
  second  : Bool
  state   : RefreshState
  inPass  : Bool
deriving DecidableEq, Repr

/-- The state of DIR; records are indexed by key. -/
structure Dir where
  records : Tab Record
  refresh : List RefreshEntry
deriving DecidableEq, Repr

/-! ## Layout store (LAY) -/

/-- Field formats (R75); `dec none` is DEC AUTO. The parameter of the kinds that do not read it is
kept as sent. -/
inductive Format where
  | dec (decimals : Option Nat)
  | frac (k : Nat)
  | bond (param : Nat)
  | timeHms (param : Nat)
  | timeHm (param : Nat)
  | cond (param : Nat)
deriving DecidableEq, Repr

inductive Subst where
  | live
  | dash
  | blank
deriving DecidableEq, Repr

/-- A bound field (spec/06, section 6.2). -/
structure Field where
  page      : Nat
  row       : Nat
  column    : Nat
  width     : Nat
  key       : Key
  selector  : Selector
  format    : Format
  right     : Bool
  plus      : Bool
  grouping  : Bool
  policy    : Nat
  throttle  : Nat
  subst     : Subst
  fg        : Colour
  bg        : Colour
  blink     : Bool
  localMark : Bool
deriving DecidableEq, Repr

/-- A label run (spec/06, section 6.3); its length is the length of `glyphs`. -/
structure LabelRun where
  page   : Nat
  row    : Nat
  column : Nat
  glyphs : List Glyph
  fg     : Colour
  bg     : Colour
  blink  : Bool
deriving DecidableEq, Repr

inductive PolicyMode where
  | none
  | flash
  | sticky
  | flashSticky
  | sign
deriving DecidableEq, Repr

/-- A highlight policy (R106). -/
structure Policy where
  mode       : PolicyMode
  hold       : Nat
  upFg       : Colour
  upBg       : Colour
  downFg     : Colour
  downBg     : Colour
  upStick    : Colour
  downStick  : Colour
  touch      : Bool
  touchFg    : Colour
  touchBg    : Colour
  blinkFlash : Bool
deriving DecidableEq, Repr

/-- The intensities of a palette entry. -/
structure Rgb where
  red   : Byte
  green : Byte
  blue  : Byte
deriving DecidableEq, Repr

/-- One step of a carousel program: a page or none, and a dwell in units of 16 sweeps. -/
structure Step where
  page  : Option Nat
  dwell : Nat
deriving DecidableEq, Repr

/-- One entry of the crawl program: its key, if any, and its label of eight codes. -/
structure ProgEntry where
  key   : Option Key
  label : Text
deriving DecidableEq, Repr

/-- Alarm routing codes (R201). -/
inductive Routing where
  | none
  | row
  | parcel
  | both
deriving DecidableEq, Repr

/-- The seven alarms (R200). -/
inductive Alarm where
  | sync
  | clash
  | silent
  | orphan
  | drop
  | underrun
  | foreign
deriving DecidableEq, Repr

/-- The global record (spec/06, section 6.8). -/
structure Global where
  staleLimit : Nat
  staleFg    : Colour
  gapFg      : Colour
  interval   : Nat
  crawlFg    : Colour
  crawlBg    : Colour
  blinkCode  : Nat
  blinkDuty  : Nat
  sync       : Routing
  clash      : Routing
  silent     : Routing
  orphan     : Routing
  drop       : Routing
  underrun   : Routing
  foreign    : Routing
deriving DecidableEq, Repr

/-- The state of LAY. Fields are indexed 0..511, label runs 0..255, policies 0..7, the palette
0..15, condition labels 0..15, carousel steps by 16 × window + step, the crawl program 0..31. An
unlisted field or run holds nothing; the others hold their defaults (R113) where unlisted. -/
structure Lay where
  fields     : Tab Field
  labels     : Tab LabelRun
  policies   : Tab Policy
  palette    : Tab Rgb
  condLabels : Tab Text
  steps      : Tab Step
  prog       : Tab ProgEntry
  global     : Global
  pointer    : Nat
deriving DecidableEq, Repr

/-! ## Cell plane and display (CPL) -/

/-- One cell of the plane (R177); `field` is the field index, 0..511 or none. -/
structure Cell where
  glyph     : Glyph
  fg        : Colour
  bg        : Colour
  blink     : Bool
  underline : Bool
  field     : Option Nat
deriving DecidableEq, Repr

/-- A run of cells of one page that a LABEL record has touched. -/
structure Region where
  page   : Nat
  row    : Nat
  column : Nat
  length : Nat
deriving DecidableEq, Repr

/-- What the owner of a hand-over of compose bursts does when the last of them is written. -/
inductive After where
  | nothing
  /-- R99: the new bindings of a FIELD record are enqueued as initial paints. -/
  | initial (fields : List Nat)
  /-- R103: the fields that meet a LABEL record's cells are enqueued as repaints. -/
  | repaint (regions : List Region)
  /-- R142: the window's compose enters the FIELDS phase. -/
  | fieldsPhase (window : Nat)
deriving DecidableEq, Repr

/-- The owner of a compose burst (R179). -/
inductive Owner where
  | window (w : Nat)
  | layout
deriving DecidableEq, Repr

/-- The kinds of compose burst (R178). -/
inductive BurstKind where
  /-- A row clear of a compose (R141). -/
  | rowClear
  /-- A label run painted whole (R99, R103, R141). -/
  | label
  /-- The cells of an unbound field cleared (R99). -/
  | fieldClear
  /-- The old cells of a label run cleared (R103). -/
  | labelClear
  /-- An old row of a WINDOW record cleared (R105). -/
  | oldRowClear
deriving DecidableEq, Repr

/-- A compose burst: its kind, and cells of one plane row from a column on (R179). -/
structure Burst where
  kind   : BurstKind
  row    : Nat
  column : Nat
  cells  : List Cell
  owner  : Owner
  after  : After
deriving DecidableEq, Repr

/-- Who is told when a granted write is complete. -/
inductive Requester where
  | crawl
  | painter
  | compose (owner : Owner) (after : After)
  | status
deriving DecidableEq, Repr

/-- A granted write transfer. -/
structure Write where
  row    : Nat
  column : Nat
  cells  : List Cell
  by_    : Requester
deriving DecidableEq, Repr

/-- The turn of the port arbiter (R180). -/
inductive Turn where
  | painter
  | compose
deriving DecidableEq, Repr

/-- A cell as the display shows it: resolved palette indices and their colours (R184 to R190). -/
structure Shown where
  glyph     : Glyph
  fg        : Colour
  bg        : Colour
  fgRgb     : Rgb
  bgRgb     : Rgb
  underline : Bool
deriving DecidableEq, Repr

/-- The state of CPL. Plane cells are indexed by 256 × row + column; an unlisted cell is the reset
cell. `picture` holds, for each plane row fetched, what its 16 scan lines show. -/
structure Cpl where
  plane     : Tab Cell
  bursts    : List Burst
  granted   : Option Write
  crawlReq  : Bool
  statusReq : Bool
  fetchReq  : Option Nat
  turn      : Turn
  blinkOn   : Bool
  /-- The row due next in the frame; the row count when the frame's rows are all fetched. -/
  nextRow   : Nat
  picture   : Tab (List Shown)
deriving DecidableEq, Repr

/-! ## Painter (PNT) -/

/-- The paint kinds; `rank` gives their order (R116). -/
inductive PaintKind where
  | initial
  | thaw
  | ordinary
  | repaint
deriving DecidableEq, Repr

/-- One entry of the paint queue. -/
structure PaintReq where
  index : Nat
  kind  : PaintKind
deriving DecidableEq, Repr

inductive Flash where
  | none
  | up
  | down
  | touch
deriving DecidableEq, Repr

inductive Stick where
  | none
  | up
  | down
deriving DecidableEq, Repr

inductive TextKind where
  | none
  | value
  | condition
  | substituted
  | overridden
deriving DecidableEq, Repr

/-- The paint state of a field index (spec/07, section 7.1). -/
structure PaintState where
  lastValue : Option Value
  flash     : Flash
  stick     : Stick
  lastPaint : Option Sweep
  pending   : Option Sweep
  textKind  : TextKind
deriving DecidableEq, Repr

/-- One entry of the highlight expiry list. -/
structure Highlight where
  index : Nat
  due   : Sweep
deriving DecidableEq, Repr

/-- How far the painter's burst has come: waiting for its grant, granted, or written. -/
inductive BurstStage where
  | waiting
  | granted
  | written
deriving DecidableEq, Repr

/-- The painter's burst in flight: the cells, and what its service read for the commit (R121).
`unbound` and `released` record the events of R124 that fall after the grant. -/
structure PaintBurst where
  index    : Nat
  page     : Nat
  kind     : PaintKind
  textKind : TextKind
  value    : Value
  dir      : Direction
  mode     : PolicyMode
  hold     : Nat
  touch    : Bool
  row      : Nat
  column   : Nat
  cells    : List Cell
  stage    : BurstStage
  unbound  : Bool
  released : Bool
deriving DecidableEq, Repr

/-- The state of PNT. An unlisted paint state holds the initial values (R115). -/
structure Pnt where
  queue      : List PaintReq
  states     : Tab PaintState
  highlights : List Highlight
  burst      : Option PaintBurst
deriving DecidableEq, Repr

/-! ## Window controller (WIN) -/

inductive WinState where
  | empty
  | composing
  | showing
  | frozen
deriving DecidableEq, Repr

inductive OverrideMode where
  | none
  | dash
  | test
deriving DecidableEq, Repr

/-- Compose progress: the BURSTS phase, or the FIELDS phase with its compose set (R141, R142). -/
inductive Compose where
  | bursts
  | fields (set : NatSet)
deriving DecidableEq, Repr

inductive CarouselState where
  | stopped
  | running
  | pinned
deriving DecidableEq, Repr

/-- A window: its band and background (spec/06, section 6.4) and the state WIN keeps
(spec/08, section 8.1). `dwellDue` is the model's own: the remaining dwell of 1 runs out at the
present sweep start (R148, assumption 27). -/
structure Window where
  top        : Nat
  height     : Nat
  background : Colour
  state      : WinState
  page       : Option Nat
  dirty      : Bool
  freezeReq  : Bool
  override   : OverrideMode
  compose    : Option Compose
  carousel   : CarouselState
  step       : Nat
  dwell      : Nat
  advanceDue : Bool
  dwellDue   : Bool
deriving DecidableEq, Repr

/-! ## Crawl unit (CRW) -/

/-- A crawl cell (R158). -/
structure CrawlCell where
  glyph : Glyph
  fg    : Colour
  bg    : Colour
  blink : Bool
deriving DecidableEq, Repr

/-- The hand-off hold: a cell and the step tag it was sent for (R163). -/
structure Hold where
  tag  : Byte
  cell : CrawlCell
deriving DecidableEq, Repr

/-- The state of CRW. `interval` is the step interval in force since the latest sweep start (R112,
R164); `stepDue` says that the present sweep start calls for a crawl step not yet taken. -/
structure Crw where
  row        : List CrawlCell
  hold       : Option Hold
  queue      : List CrawlCell
  cursor     : Nat
  interval   : Nat
  stepDue    : Bool
  handoffDue : Bool
deriving DecidableEq, Repr

/-! ## Status unit (STS) -/

/-- The eight running counters (R197), or their snapshot (`w` is the width of each). -/
structure Counters (w : Nat) where
  good      : BitVec w
  crc       : BitVec w
  accepted  : BitVec w
  conflated : BitVec w
  dropped   : BitVec w
  gaps      : BitVec w
  underLate : BitVec w
  refusals  : BitVec w
deriving DecidableEq, Repr

/-- The seven tallies (R198). -/
structure Tallies where
  duplicates  : BitVec 16
  unbound     : BitVec 16
  malformed   : BitVec 16
  skips       : BitVec 16
  refreshFail : BitVec 16
  idle        : BitVec 16
  textDrops   : BitVec 16
deriving DecidableEq, Repr

/-- Refusal reasons (R94). -/
inductive Reason where
  | range
  | overlap
  | full
  | foreign
  | busy
deriving DecidableEq, Repr

/-- The last refusal (R203). -/
structure LastRefusal where
  kind   : Nibble
  code   : Nibble
  reason : Reason
  origin : Station
deriving DecidableEq, Repr

/-- A set of alarms (R200). -/
structure AlarmSet where
  sync     : Bool
  clash    : Bool
  silent   : Bool
  orphan   : Bool
  drop     : Bool
  underrun : Bool
  foreign  : Bool
deriving DecidableEq, Repr

/-- The lap report (R199): snapshots, alarm set and captures. -/
structure LapReport where
  counters : Counters 16
  tallies  : Tallies
  alarms   : AlarmSet
  silent   : NatSet
  orphaned : Byte
  stale    : Byte
  gapped   : Byte
deriving DecidableEq, Repr

/-- One character of the status row text; `alarm` marks the cells written 9 on 1 (R206). -/
structure StatusChar where
  code  : Byte
  alarm : Bool
deriving DecidableEq, Repr

/-- The state of STS. `lapDue` says that the present sweep start is a lap start not yet taken;
`text` is empty until the first lap start builds it (R199, R205). -/
structure Sts where
  counters     : Counters 32
  tallies      : Tallies
  report       : LapReport
  clashLatch   : Bool
  foreignLatch : Bool
  syncSeen     : Bool
  lastRefusal  : Option LastRefusal
  text         : List StatusChar
  lapDue       : Bool
deriving DecidableEq, Repr

end Sys2Proof.Machine
end

