-- ==== Sys2Proof/Machine/Straps.lean ====
section
/-! DEFINITION. What the sampled straps mean (spec/11_straps_status_and_counters.md, R194, R195,
and R1, R157, R177, R192). -/

namespace Sys2Proof.Machine

/-- A mute listener is strapped with station number 0 (R194). -/
def mute (st : Straps) : Bool := decide (st.sn = 0)

/-- The REFCLK periods of one bit time: 2, 4 or 8, with SR 11 taken as 00 (R1, section 1.11). -/
def bitPeriods (st : Straps) : Nat :=
  if st.sr = 1 then 4 else if st.sr = 2 then 8 else 2

/-- The plane's rows (R177). -/
def rows (st : Straps) : Nat :=
  if st.gm = 0 then 25 else if st.gm = 1 then 36 else if st.gm = 2 then 48 else 60

/-- The plane's columns (R177). -/
def cols (st : Straps) : Nat :=
  if st.gm = 0 then 80 else if st.gm = 1 then 120 else 160

/-- The crawl roles; a link names its upstream station. -/
inductive CrawlRole where
  | off
  | head
  | link (upstream : Station)
deriving DecidableEq, Repr

/-- The crawl role after the CF check (R157). -/
def role (st : Straps) : CrawlRole :=
  if st.cr = 1 then .head
  else if st.cr = 2 then
    if st.cf = 0 ∨ st.cf = st.sn then .off else .link st.cf
  else .off

/-- The role byte of a PRESENCE: 0 OFF, 1 HEAD, 2 LINK. -/
def CrawlRole.code : CrawlRole → Byte
  | .off => 0
  | .head => 1
  | .link _ => 2

/-- Whether a crawl row is reserved. -/
def CrawlRole.hasRow : CrawlRole → Bool
  | .off => false
  | .head => true
  | .link _ => true

/-- The status row: the last plane row under SROW 1 (R195). -/
def statusRow (st : Straps) : Option Nat :=
  if st.srow then some (rows st - 1) else none

/-- The crawl row: above the status row, or the last row when SROW is 0 (R158, R195). -/
def crawlRow (st : Straps) : Option Nat :=
  if (role st).hasRow then some (if st.srow then rows st - 2 else rows st - 1) else none

/-- F, the number of free rows for windows (R195). -/
def freeRows (st : Straps) : Nat :=
  rows st - (if st.srow then 1 else 0) - (if (role st).hasRow then 1 else 0)

/-- A video mode: pixels per line and lines per frame, active and total, with the start and width
of each sync pulse, and the pixel clock as fifths of REFCLK (R192). -/
structure VideoMode where
  activePixels : Nat
  activeLines  : Nat
  clockFifths  : Nat
  totalPixels  : Nat
  hsyncStart   : Nat
  hsyncWidth   : Nat
  totalLines   : Nat
  vsyncStart   : Nat
  vsyncWidth   : Nat
deriving DecidableEq, Repr

/-- The video mode of the sampled geometry (R192). -/
def videoMode (st : Straps) : VideoMode :=
  if st.gm = 0 then ⟨640, 400, 3, 800, 656, 96, 512, 412, 2⟩
  else if st.gm = 1 then ⟨960, 576, 6, 1280, 1000, 128, 640, 590, 3⟩
  else if st.gm = 2 then ⟨1280, 768, 9, 1536, 1320, 136, 800, 774, 6⟩
  else ⟨1280, 960, 12, 1600, 1328, 112, 1024, 964, 3⟩

end Sys2Proof.Machine
end

