-- ==== Sys2Proof/Machine/Defaults.lean ====
section
/-! DEFINITION. The values the manual gives each piece of state at RESETn release and, where it
says so, at LAYOUT CLEAR. -/

namespace Sys2Proof.Machine

/-- A peer entry at reset (R23). -/
def resetPeer : Peer := { state := .absent, kind := .unknown, misses := 0 }

/-- The reset cell (R177). -/
def resetCell : Cell :=
  { glyph := 0x20, fg := 7, bg := 0, blink := false, underline := false, field := none }

/-- The initial paint state (R115). -/
def initialPaint : PaintState :=
  { lastValue := none, flash := .none, stick := .none, lastPaint := none, pending := none,
    textKind := .none }

/-- A policy at reset (R113). -/
def defaultPolicy : Policy :=
  { mode := .flash, hold := 512, upFg := 0, upBg := 10, downFg := 15, downBg := 9, upStick := 10,
    downStick := 9, touch := false, touchFg := 0, touchBg := 11, blinkFlash := false }

/-- The default palette (R113). -/
def defaultPalette (i : Nat) : Rgb :=
  match i with
  | 0 => ⟨0x00, 0x00, 0x00⟩
  | 1 => ⟨0x00, 0x00, 0x80⟩
  | 2 => ⟨0x00, 0x80, 0x00⟩
  | 3 => ⟨0x00, 0x80, 0x80⟩
  | 4 => ⟨0x80, 0x00, 0x00⟩
  | 5 => ⟨0x80, 0x00, 0x80⟩
  | 6 => ⟨0x80, 0x80, 0x00⟩
  | 7 => ⟨0xC0, 0xC0, 0xC0⟩
  | 8 => ⟨0x80, 0x80, 0x80⟩
  | 9 => ⟨0xFF, 0x00, 0x00⟩
  | 10 => ⟨0x00, 0xFF, 0x00⟩
  | 11 => ⟨0xFF, 0xFF, 0x00⟩
  | 12 => ⟨0x00, 0x00, 0xFF⟩
  | 13 => ⟨0xFF, 0x00, 0xFF⟩
  | 14 => ⟨0x00, 0xFF, 0xFF⟩
  | _ => ⟨0xFF, 0xFF, 0xFF⟩

/-- A run of spaces. -/
def spaces (n : Nat) : Text := List.replicate n 0x20

/-- A blank condition label (R92, R113). -/
def blankCondLabel : Text := spaces 6

/-- A carousel step at reset (R109). -/
def defaultStep : Step := { page := none, dwell := 1 }

/-- A crawl program entry at reset (R110). -/
def defaultProg : ProgEntry := { key := none, label := spaces 8 }

/-- The global record at reset (spec/06, section 6.8). -/
def defaultGlobal : Global :=
  { staleLimit := 0, staleFg := 8, gapFg := 11, interval := 4, crawlFg := 15, crawlBg := 0,
    blinkCode := 5, blinkDuty := 8, sync := .both, clash := .both, silent := .both,
    orphan := .both, drop := .both, underrun := .both, foreign := .both }

/-- The Layout store's contents at reset and at LAYOUT CLEAR (R113). -/
def defaultLay : Lay :=
  { fields := [], labels := [], policies := [], palette := [], condLabels := [], steps := [],
    prog := [], global := defaultGlobal, pointer := 0 }

/-- A window that does not exist, at its reset values (R139). -/
def resetWindow : Window :=
  { top := 0, height := 0, background := 0, state := .empty, page := none, dirty := false,
    freezeReq := false, override := .none, compose := none, carousel := .stopped, step := 0,
    dwell := 0, advanceDue := false, dwellDue := false }

/-- A blank crawl cell in given base colours (R158). -/
def blankCrawl (fg bg : Colour) : CrawlCell := { glyph := 0x20, fg := fg, bg := bg, blink := false }

/-- The crawl row at reset and at LAYOUT CLEAR: blanks in the default base colours on every plane
column, or no row at all in role OFF (R157, R158). -/
def resetCrawlRow (st : Straps) : List CrawlCell :=
  if (role st).hasRow then
    List.replicate (cols st) (blankCrawl defaultGlobal.crawlFg defaultGlobal.crawlBg)
  else []

/-- The running counters at 0 (R197). -/
def zeroCounters (w : Nat) : Counters w :=
  { good := 0, crc := 0, accepted := 0, conflated := 0, dropped := 0, gaps := 0, underLate := 0,
    refusals := 0 }

/-- The tallies at 0 (R198). -/
def zeroTallies : Tallies :=
  { duplicates := 0, unbound := 0, malformed := 0, skips := 0, refreshFail := 0, idle := 0,
    textDrops := 0 }

/-- No alarm. -/
def noAlarms : AlarmSet :=
  { sync := false, clash := false, silent := false, orphan := false, drop := false,
    underrun := false, foreign := false }

/-- The lap report at reset (R199). -/
def resetReport : LapReport :=
  { counters := zeroCounters 16, tallies := zeroTallies, alarms := noAlarms, silent := [],
    orphaned := 0, stale := 0, gapped := 0 }

end Sys2Proof.Machine
end

