-- ==== Sys2Proof/Machine/State.lean ====
section
/-! DEFINITION. The state of the ZQ480, the reasons a step can stop, and the state after reset. -/

namespace Sys2Proof.Machine

/-- The whole part, one structure per block (spec/00_scope.md, section 1.3). -/
structure State where
  /-- RESETn is held low (R5). -/
  resetHeld : Bool
  /-- The strap levels sampled at the latest RESETn release (R194). -/
  straps : Straps
  lnk : Lnk
  ptb : Ptb
  inq : List IntakeEntry
  dir : Dir
  lay : Lay
  pnt : Pnt
  win : Tab Window
  crw : Crw
  cpl : Cpl
  sts : Sts
  /-- The commands that wait, first in, first out; the model's own. -/
  pending : List Instr
deriving DecidableEq, Repr

/-- The reasons the part stops. It has none: the manual gives every event an effect, so no step of
this model faults (safe: nothing is cut short). -/
inductive Fault where
deriving DecidableEq, Repr

/-- The reasons the model has no meaning for a command. -/
inductive Refusal where
  /-- Raised by an arm of `exec` for a command that has no meaning yet. Safe: the model stops where
  the part goes on. No arm raises it now. -/
  | notModelled (mnemonic : String)
deriving DecidableEq, Repr

/-- LNK at RESETn release (R1, R4, R5, R7, R15): LISTEN, sweep number and lap index 0, slot count
none, lap-listen in force, queue empty (assumption 34). -/
def resetLnk (dlsLow : Bool) : Lnk :=
  { sync := .listen, timer := 0, slotRunning := false, markInProgress := false, freeRunDue := false,
    lowSinceRelease := dlsLow, freeTime := if dlsLow then none else some 0, dls := none,
    dld := none, sentSlot := none, begunSlot := none, heard := [], sweep := 0, lap := 0,
    lapListen := true, longSeen := false, txq := [] }

/-- PTB at RESETn release (R23, R31, R35). -/
def resetPtb : Ptb := { peers := [], marks := [], origin := none }

/-- PNT at RESETn release and at LAYOUT CLEAR (R115, R116, R130). -/
def resetPnt : Pnt := { queue := [], states := [], highlights := [], burst := none }

/-- CRW at RESETn release (R158, R163, R168, R171). -/
def resetCrw (st : Straps) : Crw :=
  { row := resetCrawlRow st, hold := none, queue := [], cursor := 0,
    interval := defaultGlobal.interval, stepDue := false, handoffDue := false }

/-- CPL at RESETn release: every cell the reset cell, no request, the turn COMPOSE, and the first
frame begun with the phase ON (R177, R179, R180, R189, R192; assumption 32). -/
def resetCpl : Cpl :=
  { plane := [], bursts := [], granted := none, crawlReq := false, statusReq := false,
    fetchReq := none, turn := .compose, blinkOn := true, nextRow := 0, picture := [] }

/-- STS at RESETn release (R197 to R200, R203, R205). -/
def resetSts : Sts :=
  { counters := zeroCounters 32, tallies := zeroTallies, report := resetReport, clashLatch := false,
    foreignLatch := false, syncSeen := false, lastRefusal := none, text := [], lapDue := false }

/-- The part right after RESETn release with given strap levels and a given level of DLS. -/
def State.released (st : Straps) (dlsLow : Bool) (pending : List Instr) : State :=
  { resetHeld := false, straps := st, lnk := resetLnk dlsLow, ptb := resetPtb, inq := [],
    dir := { records := [], refresh := [] }, lay := defaultLay, pnt := resetPnt, win := [],
    crw := resetCrw st, cpl := resetCpl, sts := resetSts, pending := pending }

/-- The part right after reset, with the strap levels of `Config.resetStraps`, DLS high, and no
command waiting (assumption 1). -/
def State.reset : State := State.released Config.resetStraps false []

/-! ## Block updates: a block changed by a function, the rest as it was. -/

def State.modLnk (s : State) (f : Lnk → Lnk) : State := { s with lnk := f s.lnk }
def State.modPtb (s : State) (f : Ptb → Ptb) : State := { s with ptb := f s.ptb }
def State.modInq (s : State) (f : List IntakeEntry → List IntakeEntry) : State :=
  { s with inq := f s.inq }
def State.modDir (s : State) (f : Dir → Dir) : State := { s with dir := f s.dir }
def State.modLay (s : State) (f : Lay → Lay) : State := { s with lay := f s.lay }
def State.modPnt (s : State) (f : Pnt → Pnt) : State := { s with pnt := f s.pnt }
def State.modWin (s : State) (f : Tab Window → Tab Window) : State := { s with win := f s.win }
def State.modCrw (s : State) (f : Crw → Crw) : State := { s with crw := f s.crw }
def State.modCpl (s : State) (f : Cpl → Cpl) : State := { s with cpl := f s.cpl }
def State.modSts (s : State) (f : Sts → Sts) : State := { s with sts := f s.sts }

end Sys2Proof.Machine
end

