-- ==== Sys2Proof/Machine/Parcel.lean ====
section
/-! DEFINITION. Parcels as bytes: the CRC (R18), the common frame, and the bodies of the parcels the
part sends (R13, R22, R70, R164, R202). Bytes are in the order they are sent. -/

namespace Sys2Proof.Machine

/-- One bit of the CRC register fed with 0 (R18). -/
def crcShift (r : BitVec 16) : BitVec 16 := if r.msb then (r <<< 1) ^^^ 0x1021 else r <<< 1

/-- The CRC register after n shifts. -/
def crcShifts : Nat → BitVec 16 → BitVec 16
  | 0, r => r
  | n + 1, r => crcShifts n (crcShift r)

/-- The CRC register after one byte, MSB first (R18). -/
def crcByte (r : BitVec 16) (b : Byte) : BitVec 16 :=
  crcShifts 8 (r ^^^ (b.setWidth 16 <<< 8))

/-- The CRC of a list of bytes, the register starting at 0xFFFF (R18). -/
def crc16 (bytes : List Byte) : BitVec 16 := bytes.foldl crcByte 0xFFFF

/-- The high byte of a 16-bit value. -/
def hiByte (x : BitVec 16) : Byte := x.extractLsb' 8 8

/-- The low byte of a 16-bit value. -/
def loByte (x : BitVec 16) : Byte := x.extractLsb' 0 8

/-- The three bytes of a key, big-endian. -/
def keyBytes (k : Key) : List Byte := [k.extractLsb' 16 8, k.extractLsb' 8 8, k.extractLsb' 0 8]

/-- A flag as bit 0 of a byte. -/
def flagByte (b : Bool) : Byte := if b then 1 else 0

/-- A body filled with 0 to 28 bytes; unassigned bits are sent as 0 (R22). -/
def bodyOf (bytes : List Byte) : List Byte := bytes ++ List.replicate (28 - bytes.length) 0

/-- Bytes 0..29 of a parcel. -/
def Parcel.head (p : Parcel) : List Byte := (p.kind ++ p.origin) :: (p.target ++ p.sub) :: p.body

/-- A list of 30 bytes closed by its CRC, high byte first (R18). -/
def withCrc (head : List Byte) : List Byte := head ++ [hiByte (crc16 head), loByte (crc16 head)]

/-- The 32 bytes of a parcel as sent. -/
def Parcel.bytes (p : Parcel) : List Byte := withCrc p.head

/-- The layout origin as a PRESENCE carries it: 0 when none (R36). -/
def originByte (o : Option Station) : Byte := (o.getD 0).setWidth 8

/-- A PRESENCE: station kind 3, the crawl role, the layout origin and the lap-listen flag (R13). -/
def presenceParcel (own : Station) (r : CrawlRole) (origin : Option Station) (lapListen : Bool) :
    Parcel :=
  { kind := 15, origin := own, target := 0, sub := 0,
    body := bodyOf [3, r.code, originByte origin, flagByte lapListen] }

/-- A HANDOFF: the next step's tag and a crawl cell (R164). -/
def handoffParcel (own : Station) (tag : Byte) (c : CrawlCell) : Parcel :=
  { kind := 5, origin := own, target := 0, sub := 0,
    body := bodyOf [tag, flagByte (c.glyph.getLsbD 8), c.glyph.setWidth 8, c.fg ++ c.bg,
      flagByte c.blink] }

/-- A REFRESH to a station for a key (R70). -/
def refreshParcel (own target : Station) (key : Key) : Parcel :=
  { kind := 4, origin := own, target := target, sub := 0, body := bodyOf (keyBytes key) }

/-- The alarm set byte of a STATUS. -/
def AlarmSet.byte (a : AlarmSet) : Byte :=
  BitVec.ofBool false ++ BitVec.ofBool a.foreign ++ BitVec.ofBool a.underrun
    ++ BitVec.ofBool a.drop ++ BitVec.ofBool a.orphan ++ BitVec.ofBool a.silent
    ++ BitVec.ofBool a.clash ++ BitVec.ofBool a.sync

/-- The silent-station set: bit n − 1 is station n. -/
def stationSet (s : NatSet) : BitVec 16 :=
  s.foldl (fun w n => w ||| ((1 : BitVec 16) <<< (n - 1))) 0

/-- The reason code of a STATUS. -/
def Reason.code : Reason → Byte
  | .range => 1
  | .overlap => 2
  | .full => 3
  | .foreign => 4
  | .busy => 5

/-- Body bytes 22..24 of a STATUS; none is zeros (R203). -/
def refusalBytes : Option LastRefusal → List Byte
  | none => [0, 0, 0]
  | some r => [r.kind ++ r.code, r.reason.code, r.origin.setWidth 8]

/-- The eight counters of a STATUS, 16 bits each, high byte first. -/
def Counters.bytes (c : Counters 16) : List Byte :=
  [hiByte c.good, loByte c.good, hiByte c.crc, loByte c.crc, hiByte c.accepted, loByte c.accepted,
   hiByte c.conflated, loByte c.conflated, hiByte c.dropped, loByte c.dropped, hiByte c.gaps,
   loByte c.gaps, hiByte c.underLate, loByte c.underLate, hiByte c.refusals, loByte c.refusals]

/-- A STATUS from a lap report, the alarms routed to the parcel and the last refusal (R202). -/
def statusParcel (own : Station) (r : LapReport) (alarms : AlarmSet) (last : Option LastRefusal) :
    Parcel :=
  { kind := 8, origin := own, target := 0, sub := 0,
    body := bodyOf ([alarms.byte, hiByte (stationSet r.silent), loByte (stationSet r.silent),
      r.orphaned, r.stale, r.gapped] ++ r.counters.bytes ++ refusalBytes last) }

/-- The code of a command outside 1..10. -/
def badCommandCode : BadCommandCode → Nibble
  | .c0 => 0
  | .c11 => 11
  | .c12 => 12
  | .c13 => 13
  | .c14 => 14
  | .c15 => 15

/-- The kind of a record outside 1..9. -/
def badRecordKind : BadRecordKind → Nibble
  | .k0 => 0
  | .k10 => 10
  | .k11 => 11
  | .k12 => 12
  | .k13 => 13
  | .k14 => 14
  | .k15 => 15

/-- The kind of a parcel that is counted and not dispatched (R21). -/
def ignoredCode : IgnoredKind → Nibble
  | .refresh => 4
  | .status => 8

/-- The plane cell as its 32-bit word (spec/01, plane cell table). -/
def Cell.word (c : Cell) : BitVec 32 :=
  (0 : BitVec 3) ++ BitVec.ofNat 10 (c.field.getD 1023) ++ BitVec.ofBool c.underline
    ++ BitVec.ofBool c.blink ++ c.bg ++ c.fg ++ c.glyph

/-- The plane cell of a 32-bit word; a field index of 1023 is none. -/
def Cell.ofWord (w : BitVec 32) : Cell :=
  { glyph := w.extractLsb' 0 9, fg := w.extractLsb' 9 4, bg := w.extractLsb' 13 4,
    blink := w.getLsbD 17, underline := w.getLsbD 18,
    field := if w.extractLsb' 19 10 = 1023 then none else some (w.extractLsb' 19 10).toNat }

end Sys2Proof.Machine
end

