-- ==== Sys2Proof/Decode.lean ====
section
/-! DEFINITION. Words and parcels as commands. spec/opcode_table.json gives none of its rows any bits,
so no table word spells a command (assumption 21). What the part does decode is the 32 bytes of a
received parcel: `decodeParcel` reads them as R11, R18, R19 and the layouts of R22 say, and
`encodeParcel` writes the parcel that a command stands for from the same layouts. -/

namespace Sys2Proof

open Machine

/-- The command that a word of the table spells; the table gives no row any bits. -/
def decodeTableWord (_nbits _w : Nat) : Option Instr := none

/-! ## Reading a body (R22) -/

/-- A byte of a body, 0 beyond its end. -/
def byteAt (body : List Byte) (k : Nat) : Byte := body.getD k 0

/-- The high nibble of a byte. -/
def hiNibble (b : Byte) : Nibble := b.extractLsb' 4 4

/-- The low nibble of a byte. -/
def loNibble (b : Byte) : Nibble := b.extractLsb' 0 4

/-- Sixteen bits, high byte first. -/
def wordAt (body : List Byte) (k : Nat) : BitVec 16 := byteAt body k ++ byteAt body (k + 1)

/-- An instrument key. -/
def keyAt (body : List Byte) (k : Nat) : Key := byteAt body k ++ byteAt body (k + 1) ++ byteAt body (k + 2)

/-- A run of bytes of a body. -/
def runAt (body : List Byte) (k n : Nat) : List Byte := (List.range n).map fun i => byteAt body (k + i)

/-- One item entry of a TICK. -/
def itemAt (body : List Byte) (k : Nat) : TickItem :=
  { code := hiNibble (byteAt body k), scale := (byteAt body k).extractLsb' 0 3
    value := wordAt body (k + 1) ++ wordAt body (k + 3) }

def readTick (sub : Nibble) (b : List Byte) : TickBody :=
  { sub := sub, key := keyAt b 0, seq := wordAt b 3, count := byteAt b 5
    items := [itemAt b 6, itemAt b 11, itemAt b 16, itemAt b 21] }

def readPresence (b : List Byte) : PresenceBody :=
  { kind := byteAt b 0, role := byteAt b 1, originHeld := byteAt b 2, lapListen := (byteAt b 3).getLsbD 0 }

def readHandoff (b : List Byte) : HandoffBody :=
  { tag := byteAt b 0, glyph := (byteAt b 1).extractLsb' 0 1 ++ byteAt b 2
    fg := hiNibble (byteAt b 3), bg := loNibble (byteAt b 3), blink := (byteAt b 4).getLsbD 0 }

def readCrawlText (b : List Byte) : CrawlTextBody :=
  { count := byteAt b 0, fg := hiNibble (byteAt b 1), bg := loNibble (byteAt b 1)
    blink := (byteAt b 2).getLsbD 0, chars := runAt b 3 24 }

/-- One entry of a FIELD record. -/
def fieldEntryAt (b : List Byte) (k : Nat) : FieldEntry :=
  { page := (byteAt b k).extractLsb' 0 5, row := (byteAt b (k + 1)).extractLsb' 0 6
    column := byteAt b (k + 2), width := (byteAt b (k + 3)).extractLsb' 0 6, key := keyAt b (k + 4)
    item := hiNibble (byteAt b (k + 7)), format := (byteAt b (k + 7)).extractLsb' 0 3
    policy := (byteAt b (k + 8)).extractLsb' 4 3, param := loNibble (byteAt b (k + 8))
    throttle := byteAt b (k + 9), fg := hiNibble (byteAt b (k + 10)), bg := loNibble (byteAt b (k + 10))
    justifyRight := (byteAt b (k + 11)).getLsbD 7, plus := (byteAt b (k + 11)).getLsbD 6
    grouping := (byteAt b (k + 11)).getLsbD 5, subst := (byteAt b (k + 11)).extractLsb' 3 2
    blink := (byteAt b (k + 11)).getLsbD 1, localMark := (byteAt b (k + 11)).getLsbD 0 }

def readFieldRecord (b : List Byte) : FieldRecord :=
  { atPointer := (byteAt b 0).getLsbD 7, start := (byteAt b 0).extractLsb' 0 1 ++ byteAt b 1
    count := byteAt b 2, first := fieldEntryAt b 3, second := fieldEntryAt b 15 }

def readLabelRecord (b : List Byte) : LabelRecord :=
  { run := wordAt b 0, page := (byteAt b 2).extractLsb' 0 5, row := (byteAt b 3).extractLsb' 0 6
    column := byteAt b 4, length := byteAt b 5, charset := hiNibble (byteAt b 6)
    blink := (byteAt b 6).getLsbD 0, fg := hiNibble (byteAt b 7), bg := loNibble (byteAt b 7)
    chars := runAt b 8 20 }

def readWindowRecord (b : List Byte) : WindowRecord :=
  { window := byteAt b 0, top := byteAt b 1, height := byteAt b 2, background := loNibble (byteAt b 3)
    page := byteAt b 4 }

def readPolicyRecord (b : List Byte) : PolicyRecord :=
  { policy := byteAt b 0, mode := byteAt b 1, hold := wordAt b 2
    upFg := hiNibble (byteAt b 4), upBg := loNibble (byteAt b 4)
    downFg := hiNibble (byteAt b 5), downBg := loNibble (byteAt b 5)
    upStick := hiNibble (byteAt b 6), downStick := loNibble (byteAt b 6)
    touchFg := hiNibble (byteAt b 7), touchBg := loNibble (byteAt b 7)
    touch := (byteAt b 8).getLsbD 1, blinkFlash := (byteAt b 8).getLsbD 0 }

def readPaletteRecord (b : List Byte) : PaletteRecord :=
  { entry := byteAt b 0, red := byteAt b 1, green := byteAt b 2, blue := byteAt b 3 }

def readCondLabelRecord (b : List Byte) : CondLabelRecord := { code := byteAt b 0, chars := runAt b 1 6 }

def readCarouselRecord (b : List Byte) : CarouselRecord :=
  { window := byteAt b 0, step := byteAt b 1, page := byteAt b 2, dwell := (wordAt b 3).extractLsb' 0 12 }

def readCrawlProgRecord (b : List Byte) : CrawlProgRecord :=
  { entry := byteAt b 0, keyPresent := (byteAt b 1).getLsbD 0, key := keyAt b 2, chars := runAt b 5 8 }

/-- Two bits of a byte, from a bit on. -/
def pairOf (b : Byte) (k : Nat) : BitVec 2 := b.extractLsb' k 2

def readGlobalRecord (b : List Byte) : GlobalRecord :=
  { staleLimit := wordAt b 0, staleFg := hiNibble (byteAt b 2), gapFg := loNibble (byteAt b 2)
    interval := byteAt b 3, crawlFg := hiNibble (byteAt b 4), crawlBg := loNibble (byteAt b 4)
    blinkCode := byteAt b 5, blinkDuty := byteAt b 6
    sync := pairOf (byteAt b 7) 6, clash := pairOf (byteAt b 7) 4
    silent := pairOf (byteAt b 7) 2, orphan := pairOf (byteAt b 7) 0
    drop := pairOf (byteAt b 8) 6, underrun := pairOf (byteAt b 8) 4, foreign := pairOf (byteAt b 8) 2 }

/-- A COMMAND by its code (R21). -/
def readCommand (rx : Rx) (code : Nibble) (b : List Byte) : Instr :=
  match code.toNat with
  | 0 => .commandBadCode rx .c0
  | 1 => .showPage rx (byteAt b 0) (byteAt b 1)
  | 2 => .release rx (byteAt b 0)
  | 3 => .run rx (byteAt b 0)
  | 4 => .halt rx (byteAt b 0)
  | 5 => .freeze rx (byteAt b 0)
  | 6 => .thaw rx (byteAt b 0)
  | 7 => .override rx (byteAt b 0) (byteAt b 2)
  | 8 => .crawlFlush rx
  | 9 => .counterClear rx
  | 10 => .layoutClear rx
  | 11 => .commandBadCode rx .c11
  | 12 => .commandBadCode rx .c12
  | 13 => .commandBadCode rx .c13
  | 14 => .commandBadCode rx .c14
  | _ => .commandBadCode rx .c15

/-- A LAYOUT record by its kind. -/
def readLayout (rx : Rx) (kind : Nibble) (b : List Byte) : Instr :=
  match kind.toNat with
  | 0 => .layoutBadKind rx .k0
  | 1 => .field rx (readFieldRecord b)
  | 2 => .label rx (readLabelRecord b)
  | 3 => .window rx (readWindowRecord b)
  | 4 => .policy rx (readPolicyRecord b)
  | 5 => .palette rx (readPaletteRecord b)
  | 6 => .condlabel rx (readCondLabelRecord b)
  | 7 => .carousel rx (readCarouselRecord b)
  | 8 => .crawlprog rx (readCrawlProgRecord b)
  | 9 => .global rx (readGlobalRecord b)
  | 10 => .layoutBadKind rx .k10
  | 11 => .layoutBadKind rx .k11
  | 12 => .layoutBadKind rx .k12
  | 13 => .layoutBadKind rx .k13
  | 14 => .layoutBadKind rx .k14
  | _ => .layoutBadKind rx .k15

/-- A parcel with a good CRC by its kind (R19 step 2, R21); a kind that is not listed is malformed. -/
def readKind (rx : Rx) (kind sub : Nibble) (b : List Byte) : Instr :=
  match kind.toNat with
  | 1 => .mark rx sub (keyAt b 0)
  | 2 => readCommand rx sub b
  | 3 => .tick rx (readTick sub b)
  | 4 => .goodParcelIgnored rx .refresh
  | 5 => .handoff rx (readHandoff b)
  | 6 => .crawltext rx (readCrawlText b)
  | 7 => readLayout rx sub b
  | 8 => .goodParcelIgnored rx .status
  | 15 => .presence rx (readPresence b)
  | _ => .malformedParcel rx.slot

/-- The reception of a slot's bytes (R11, R18, R19 steps 1 and 2): fewer than 32 bytes are a truncated
parcel. -/
def decodeParcel (slot : Slot) (bytes : List Byte) : Instr :=
  if bytes.length ≠ 32 then .crcError slot
  else if crc16 (bytes.take 30) ≠ wordAt bytes 30 then .crcError slot
  else
    let rx : Rx :=
      { slot := slot, origin := loNibble (byteAt bytes 0), target := hiNibble (byteAt bytes 1) }
    if rx.origin = 0 then .malformedParcel slot
    else readKind rx (hiNibble (byteAt bytes 0)) (loNibble (byteAt bytes 1)) ((bytes.drop 2).take 28)

/-! ## Writing a body (R22) -/

/-- The two bytes of a 16-bit value, high byte first. -/
def wordBytes (x : BitVec 16) : List Byte := [hiByte x, loByte x]

/-- The five bytes of an item entry. -/
def itemBytes (i : TickItem) : List Byte :=
  [i.code ++ (0 : BitVec 1) ++ i.scale] ++ wordBytes (i.value.extractLsb' 16 16)
    ++ wordBytes (i.value.extractLsb' 0 16)

def tickBytes (b : TickBody) : List Byte :=
  keyBytes b.key ++ wordBytes b.seq ++ [b.count] ++ b.items.flatMap itemBytes

def presenceBytes (b : PresenceBody) : List Byte := [b.kind, b.role, b.originHeld, flagByte b.lapListen]

def handoffBytes (b : HandoffBody) : List Byte :=
  [b.tag, flagByte (b.glyph.getLsbD 8), b.glyph.setWidth 8, b.fg ++ b.bg, flagByte b.blink]

def crawlTextBytes (b : CrawlTextBody) : List Byte :=
  [b.count, b.fg ++ b.bg, flagByte b.blink] ++ b.chars

/-- The twelve bytes of a FIELD entry. -/
def fieldEntryBytes (e : FieldEntry) : List Byte :=
  [e.page.setWidth 8, e.row.setWidth 8, e.column, e.width.setWidth 8] ++ keyBytes e.key
    ++ [e.item ++ (0 : BitVec 1) ++ e.format, (0 : BitVec 1) ++ e.policy ++ e.param, e.throttle,
      e.fg ++ e.bg,
      BitVec.ofBool e.justifyRight ++ BitVec.ofBool e.plus ++ BitVec.ofBool e.grouping ++ e.subst
        ++ (0 : BitVec 1) ++ BitVec.ofBool e.blink ++ BitVec.ofBool e.localMark]

def fieldRecordBytes (r : FieldRecord) : List Byte :=
  [BitVec.ofBool r.atPointer ++ (0 : BitVec 6) ++ r.start.extractLsb' 8 1, r.start.setWidth 8, r.count]
    ++ fieldEntryBytes r.first ++ fieldEntryBytes r.second

def labelRecordBytes (r : LabelRecord) : List Byte :=
  wordBytes r.run
    ++ [r.page.setWidth 8, r.row.setWidth 8, r.column, r.length,
      r.charset ++ (0 : BitVec 3) ++ BitVec.ofBool r.blink, r.fg ++ r.bg] ++ r.chars

def windowRecordBytes (r : WindowRecord) : List Byte :=
  [r.window, r.top, r.height, (0 : BitVec 4) ++ r.background, r.page]

def policyRecordBytes (r : PolicyRecord) : List Byte :=
  [r.policy, r.mode] ++ wordBytes r.hold
    ++ [r.upFg ++ r.upBg, r.downFg ++ r.downBg, r.upStick ++ r.downStick, r.touchFg ++ r.touchBg,
      (0 : BitVec 6) ++ BitVec.ofBool r.touch ++ BitVec.ofBool r.blinkFlash]

def paletteRecordBytes (r : PaletteRecord) : List Byte := [r.entry, r.red, r.green, r.blue]

def condLabelRecordBytes (r : CondLabelRecord) : List Byte := r.code :: r.chars

def carouselRecordBytes (r : CarouselRecord) : List Byte :=
  [r.window, r.step, r.page] ++ wordBytes (r.dwell.setWidth 16)

def crawlProgRecordBytes (r : CrawlProgRecord) : List Byte :=
  [r.entry, flagByte r.keyPresent] ++ keyBytes r.key ++ r.chars

def globalRecordBytes (r : GlobalRecord) : List Byte :=
  wordBytes r.staleLimit
    ++ [r.staleFg ++ r.gapFg, r.interval, r.crawlFg ++ r.crawlBg, r.blinkCode, r.blinkDuty,
      r.sync ++ r.clash ++ r.silent ++ r.orphan, r.drop ++ r.underrun ++ r.foreign ++ (0 : BitVec 2)]

/-- A parcel of a kind, from what the link tells of it. -/
def parcelOf (rx : Rx) (kind sub : Nibble) (bytes : List Byte) : Parcel :=
  { kind := kind, origin := rx.origin, target := rx.target, sub := sub, body := bodyOf bytes }

/-- The parcel a command stands for; none for the events that are no received parcel with a good CRC,
a listed kind and an origin. Bytes the command does not read are 0. -/
def parcelFor : Instr → Option Parcel
  | .resetnAssert => none
  | .resetnRelease _ _ => none
  | .listenPeriodExpiry => none
  | .sweepMarkRecognised _ => none
  | .markClassified _ => none
  | .stuckLine => none
  | .sweepTimerExpiry => none
  | .freeRunExpiry => none
  | .stuckTimerExpiry => none
  | .lapListenEnd => none
  | .homeSlotTransmit => none
  | .homeSlotClash => none
  | .openSlotAttempt _ => none
  | .openSlotOutcome _ => none
  | .homeSlotReport _ => none
  | .crcError _ => none
  | .malformedParcel _ => none
  | .goodParcelIgnored rx kind => some (parcelOf rx (ignoredCode kind) 0 [])
  | .presence rx body => some (parcelOf rx 15 0 (presenceBytes body))
  | .mark rx sub key => some (parcelOf rx 1 sub (keyBytes key))
  | .tick rx body => some (parcelOf rx 3 body.sub (tickBytes body))
  | .intakeTake => none
  | .commandBadCode rx code => some (parcelOf rx 2 (badCommandCode code) [])
  | .showPage rx window page => some (parcelOf rx 2 1 [window, page])
  | .release rx window => some (parcelOf rx 2 2 [window])
  | .run rx window => some (parcelOf rx 2 3 [window])
  | .halt rx window => some (parcelOf rx 2 4 [window])
  | .freeze rx window => some (parcelOf rx 2 5 [window])
  | .thaw rx window => some (parcelOf rx 2 6 [window])
  | .override rx window mode => some (parcelOf rx 2 7 [window, 0, mode])
  | .crawlFlush rx => some (parcelOf rx 2 8 [])
  | .counterClear rx => some (parcelOf rx 2 9 [])
  | .layoutClear rx => some (parcelOf rx 2 10 [])
  | .layoutBadKind rx kind => some (parcelOf rx 7 (badRecordKind kind) [])
  | .field rx body => some (parcelOf rx 7 1 (fieldRecordBytes body))
  | .label rx body => some (parcelOf rx 7 2 (labelRecordBytes body))
  | .window rx body => some (parcelOf rx 7 3 (windowRecordBytes body))
  | .policy rx body => some (parcelOf rx 7 4 (policyRecordBytes body))
  | .palette rx body => some (parcelOf rx 7 5 (paletteRecordBytes body))
  | .condlabel rx body => some (parcelOf rx 7 6 (condLabelRecordBytes body))
  | .carousel rx body => some (parcelOf rx 7 7 (carouselRecordBytes body))
  | .crawlprog rx body => some (parcelOf rx 7 8 (crawlProgRecordBytes body))
  | .global rx body => some (parcelOf rx 7 9 (globalRecordBytes body))
  | .handoff rx body => some (parcelOf rx 5 0 (handoffBytes body))
  | .crawltext rx body => some (parcelOf rx 6 0 (crawlTextBytes body))
  | .crawlStep => none
  | .staleExpiry => none
  | .refreshDeadline => none
  | .pendingRelease => none
  | .highlightExpiry => none
  | .dwellExpiry _ => none
  | .lapStart => none
  | .paintService => none
  | .paintCommit => none
  | .portGrant => none
  | .transferComplete => none
  | .frameStart => none
  | .rowFetch => none
  | .stuckLineRisingEdge _ => none
  | .unrecognisedFallingEdge _ => none

/-- What the link tells of the parcel a command stands for. -/
def rxOf : Instr → Option Rx
  | .resetnAssert => none
  | .resetnRelease _ _ => none
  | .listenPeriodExpiry => none
  | .sweepMarkRecognised _ => none
  | .markClassified _ => none
  | .stuckLine => none
  | .sweepTimerExpiry => none
  | .freeRunExpiry => none
  | .stuckTimerExpiry => none
  | .lapListenEnd => none
  | .homeSlotTransmit => none
  | .homeSlotClash => none
  | .openSlotAttempt _ => none
  | .openSlotOutcome _ => none
  | .homeSlotReport _ => none
  | .crcError _ => none
  | .malformedParcel _ => none
  | .goodParcelIgnored rx _ => some rx
  | .presence rx _ => some rx
  | .mark rx _ _ => some rx
  | .tick rx _ => some rx
  | .intakeTake => none
  | .commandBadCode rx _ => some rx
  | .showPage rx _ _ => some rx
  | .release rx _ => some rx
  | .run rx _ => some rx
  | .halt rx _ => some rx
  | .freeze rx _ => some rx
  | .thaw rx _ => some rx
  | .override rx _ _ => some rx
  | .crawlFlush rx => some rx
  | .counterClear rx => some rx
  | .layoutClear rx => some rx
  | .layoutBadKind rx _ => some rx
  | .field rx _ => some rx
  | .label rx _ => some rx
  | .window rx _ => some rx
  | .policy rx _ => some rx
  | .palette rx _ => some rx
  | .condlabel rx _ => some rx
  | .carousel rx _ => some rx
  | .crawlprog rx _ => some rx
  | .global rx _ => some rx
  | .handoff rx _ => some rx
  | .crawltext rx _ => some rx
  | .crawlStep => none
  | .staleExpiry => none
  | .refreshDeadline => none
  | .pendingRelease => none
  | .highlightExpiry => none
  | .dwellExpiry _ => none
  | .lapStart => none
  | .paintService => none
  | .paintCommit => none
  | .portGrant => none
  | .transferComplete => none
  | .frameStart => none
  | .rowFetch => none
  | .stuckLineRisingEdge _ => none
  | .unrecognisedFallingEdge _ => none

/-- The 32 bytes of the parcel a command stands for, CRC included (R18, R22). -/
def encodeParcel (i : Instr) : Option (List Byte) := (parcelFor i).map Parcel.bytes

end Sys2Proof
end

