-- ==== Sys2Proof/Machine/Flags.lean ====
section
/-! DEFINITION. The counts, latches, alarm flags and routing of the Status unit
(spec/11_straps_status_and_counters.md, R197 to R201, R203). -/

namespace Sys2Proof.Machine

/-- A running counter raised by 1 (R197). -/
def bump (c : BitVec 32) : BitVec 32 := if c = BitVec.allOnes 32 then Config.counterPastLimit else c + 1

/-- A tally raised by 1 and held at 65,535 (R198). -/
def bumpTally (t : BitVec 16) : BitVec 16 := if t = BitVec.allOnes 16 then t else t + 1

/-- A running counter as the snapshot takes it, held at 65,535 (R199). -/
def hold16 (c : BitVec 32) : BitVec 16 :=
  if 65535 < c.toNat then BitVec.allOnes 16 else c.setWidth 16

/-- A count held at 255 (R73, R199). -/
def hold8 (n : Nat) : Byte := BitVec.ofNat 8 (min n 255)

/-! ## Reports of the other blocks -/

def State.countGood (s : State) : State :=
  s.modSts fun t => { t with counters := { t.counters with good := bump t.counters.good } }
def State.countCrc (s : State) : State :=
  s.modSts fun t => { t with counters := { t.counters with crc := bump t.counters.crc } }
def State.countAccepted (s : State) : State :=
  s.modSts fun t => { t with counters := { t.counters with accepted := bump t.counters.accepted } }
def State.countConflated (s : State) : State :=
  s.modSts fun t => { t with counters := { t.counters with conflated := bump t.counters.conflated } }
def State.countDropped (s : State) : State :=
  s.modSts fun t => { t with counters := { t.counters with dropped := bump t.counters.dropped } }
def State.countGap (s : State) : State :=
  s.modSts fun t => { t with counters := { t.counters with gaps := bump t.counters.gaps } }
/-- One crawl underrun or late hand-off (R175). -/
def State.countUnderLate (s : State) : State :=
  s.modSts fun t => { t with counters := { t.counters with underLate := bump t.counters.underLate } }

def State.tallyDuplicate (s : State) : State :=
  s.modSts fun t => { t with tallies := { t.tallies with duplicates := bumpTally t.tallies.duplicates } }
def State.tallyUnbound (s : State) : State :=
  s.modSts fun t => { t with tallies := { t.tallies with unbound := bumpTally t.tallies.unbound } }
def State.tallyMalformed (s : State) : State :=
  s.modSts fun t => { t with tallies := { t.tallies with malformed := bumpTally t.tallies.malformed } }
def State.tallySkip (s : State) : State :=
  s.modSts fun t => { t with tallies := { t.tallies with skips := bumpTally t.tallies.skips } }
def State.tallyRefreshFail (s : State) : State :=
  s.modSts fun t =>
    { t with tallies := { t.tallies with refreshFail := bumpTally t.tallies.refreshFail } }
def State.tallyIdle (s : State) : State :=
  s.modSts fun t => { t with tallies := { t.tallies with idle := bumpTally t.tallies.idle } }
def State.tallyTextDrop (s : State) : State :=
  s.modSts fun t => { t with tallies := { t.tallies with textDrops := bumpTally t.tallies.textDrops } }

/-- A clash report sets the CLASH latch (R200). -/
def State.raiseClash (s : State) : State := s.modSts fun t => { t with clashLatch := true }

/-- A refusal of a LAYOUT record (kind 7) or a COMMAND (kind 2): the last refusal, the counter and,
for FOREIGN, the latch (R200, R203). -/
def State.refuse (kind code : Nibble) (reason : Reason) (origin : Station) (s : State) : State :=
  s.modSts fun t =>
    { t with
      counters := { t.counters with refusals := bump t.counters.refusals }
      lastRefusal := some { kind := kind, code := code, reason := reason, origin := origin }
      foreignLatch := t.foreignLatch || decide (reason = .foreign) }

/-! ## Counts by state and the silent set -/

/-- The number of records in a state (R73). -/
def stateCount (d : Dir) (st : RecordState) : Nat :=
  (d.records.filter (fun e => e.2.state = st)).length

/-- The stations whose entries are SILENT (spec/02, section 2.1). -/
def silentSet (p : Ptb) : NatSet :=
  (p.peers.filter (fun e => e.2.state = .silent)).map (fun e => e.1)

/-! ## The lap alarm set and routing -/

/-- The snapshot of the running counters (R199). -/
def snapshot (c : Counters 32) : Counters 16 :=
  { good := hold16 c.good, crc := hold16 c.crc, accepted := hold16 c.accepted,
    conflated := hold16 c.conflated, dropped := hold16 c.dropped, gaps := hold16 c.gaps,
    underLate := hold16 c.underLate, refusals := hold16 c.refusals }

/-- The lap alarm set (R200). -/
def lapAlarms (s : State) : AlarmSet :=
  { sync := decide (s.lnk.sync = .stuck) || s.sts.syncSeen
    clash := s.sts.clashLatch
    silent := !(silentSet s.ptb).isEmpty
    orphan := decide (0 < stateCount s.dir .orphaned)
    drop := decide (hold16 s.sts.counters.dropped ≠ 0)
    underrun := decide (hold16 s.sts.counters.underLate ≠ 0)
    foreign := s.sts.foreignLatch }

/-- Whether a routing code shows an alarm on the status row (R201). -/
def Routing.toRow : Routing → Bool
  | .none => false
  | .row => true
  | .parcel => false
  | .both => true

/-- Whether a routing code shows an alarm in the STATUS parcel (R201). -/
def Routing.toParcel : Routing → Bool
  | .none => false
  | .row => false
  | .parcel => true
  | .both => true

/-- The routing of a two-bit code (spec/01, GLOBAL table). -/
def Routing.ofCode (c : BitVec 2) : Routing :=
  if c = 0 then .none else if c = 1 then .row else if c = 2 then .parcel else .both

/-- The alarms of a set whose routing passes a test (R201). -/
def routed (pass : Routing → Bool) (g : Global) (a : AlarmSet) : AlarmSet :=
  { sync := a.sync && pass g.sync, clash := a.clash && pass g.clash
    silent := a.silent && pass g.silent, orphan := a.orphan && pass g.orphan
    drop := a.drop && pass g.drop, underrun := a.underrun && pass g.underrun
    foreign := a.foreign && pass g.foreign }

end Sys2Proof.Machine
end

