-- ==== Sys2Proof/Machine/Ops.lean ====
section
/-! DEFINITION. Operations shared by the commands: the reset guard, deadlines, the link clock, the
open-slot transmit queue, receive filtering and the layout-origin checks. -/

namespace Sys2Proof.Machine

/-- The outcome of a command. -/
abbrev Result := Host.Outcome State Fault Refusal

/-- The outcome of a command's effect; while RESETn is held low no command but RESETN_RELEASE has
one (assumption 2). -/
def running (f : State → State) (s : State) : Result := .next (if s.resetHeld then s else f s)

/-- A deadline is reached at a sweep number (spec/00_scope.md, section 3, Time). -/
def reached (now due : Sweep) : Bool := decide ((now - due).toNat < 2 ^ 31)

/-- The sweep number of the current sweep. -/
def State.now (s : State) : Sweep := s.lnk.sweep

/-- The own number (R194). -/
def State.own (s : State) : Station := s.straps.sn

/-! ## The link clock (R1) -/

/-- The bit times of a slot. -/
def slotBits : Nat := 320

/-- The bit times of a sweep. -/
def sweepBits : Nat := 20480

/-- The LISTEN period (R5). -/
def listenBits : Nat := 81920

/-- The bit time at which a slot begins. -/
def slotStart (k : Nat) : Nat := slotBits * k

/-- The bit time after a slot's parcel. -/
def parcelEnd (k : Nat) : Nat := slotStart k + 256

/-- The slot count: none until the first restart of the sweep timer (R1). -/
def Lnk.slotCount (l : Lnk) : Option Nat := if l.slotRunning then some (l.timer / slotBits) else none

/-- The bit times for which a mark is driven (spec/01, section 1.2). -/
def MarkClass.bits : MarkClass → Nat
  | .short => 16
  | .long => 64

/-- The mark still driven once the sweep timer stands at `t` after the mark's falling edge. -/
def driveAt (marking : Bool) (t : Nat) (m : Option MarkClass) : Option MarkClass :=
  if marking then m.filter (fun c => t < c.bits) else m

/-- A home-slot transmission is complete when its 256 bits have been sent (assumption 24). -/
def homeSent (t : Nat) (x : Tx) : Bool := x.home && decide (parcelEnd x.slot ≤ t)

/-- LNK as it stands when the sweep timer reaches bit time `t` (assumption 4). An earlier bit time
changes nothing. -/
def advanceTo (t : Nat) (l : Lnk) : Lnk :=
  if t ≤ l.timer then l
  else
    { l with
      timer := t
      freeTime := l.freeTime.map (· + (t - l.timer))
      dls := driveAt l.markInProgress t l.dls
      dld := l.dld.filter (fun x => !homeSent t x)
      sentSlot := if l.dld.any (homeSent t) then l.dld.map Tx.slot else l.sentSlot }

/-- The sweep timer and slot count restarted at 0 (R1); the slots of the sweep that begins have held
nothing of this station. -/
def restartTimer (l : Lnk) : Lnk :=
  { l with timer := 0, slotRunning := true, sentSlot := none, begunSlot := none }

/-- DLS has been high without a break for at least 320 bit times (R10). -/
def Lnk.lineFree (l : Lnk) : Bool := l.freeTime.any (fun n => decide (320 ≤ n))

/-- The mark a station drives at a timer expiry: long when its next lap index is 0 and it has left
lap-listen, short otherwise (R3). -/
def markToDrive (l : Lnk) : MarkClass := if l.lap = 1023 ∧ !l.lapListen then .long else .short

/-! ## The open-slot transmit queue (R15) -/

/-- The room of the open-slot transmit queue. -/
def txRoom : Nat := 8

/-- The queue has room for one more parcel. -/
def State.txFree (s : State) : Bool := decide (s.lnk.txq.length < txRoom)

/-- A parcel at the tail of the queue. -/
def State.txAdd (p : Parcel) (s : State) : State :=
  s.modLnk fun l => { l with txq := l.txq ++ [p] }

/-! ## Receiving (R11, R19, R20) -/

/-- The station sends, or has sent, a parcel in a slot of this sweep and does not take the slot
into reception (R11). -/
def Lnk.sendsIn (l : Lnk) (slot : Nat) : Bool :=
  l.dld.any (fun x => decide (x.slot = slot)) || decide (l.sentSlot = some slot)

/-- LNK receives a slot: in FOLLOW and STUCK, on a running slot count, but not slot 0, not during a
mark, and not a slot in which it sends (R5, R10 to R12). An entry into STUCK cuts no reception
(assumption 48). -/
def Lnk.receives (l : Lnk) (slot : Slot) : Bool :=
  decide (l.sync ≠ .listen) && l.slotRunning && !l.markInProgress && decide (slot ≠ 0)
    && !l.sendsIn slot.toNat

/-- A home slot whose own station has been heard in it (R20). -/
def hear (rx : Rx) (l : Lnk) : Lnk :=
  if rx.slot.toNat = rx.origin.toNat then { l with heard := NatSet.insert rx.origin.toNat l.heard } else l

/-- The station a targeted parcel must name: all stations, or this one (R19 step 5). -/
def forThis (s : State) (rx : Rx) : Bool := decide (rx.target = 0) || decide (rx.target = s.own)

/-- Receive filtering of a parcel with a good CRC and a listed kind (R19 steps 2 to 6); `act` is the
action of the block it is dispatched to. -/
def receive (rx : Rx) (targeted : Bool) (act : State → State) (s : State) : State :=
  if !s.lnk.receives rx.slot then s
  else
    let s1 := s.modLnk (advanceTo (parcelEnd rx.slot.toNat))
    if rx.origin = 0 then s1.tallyMalformed
    else if rx.origin = s.own then s1.raiseClash
    else
      let s2 := (s1.modLnk (hear rx)).countGood
      if targeted && !forThis s rx then s2 else act s2

/-! ## The layout-origin checks (R32 to R34) -/

/-- The check of a LAYOUT parcel, which claims the screen when the origin is none (R32). -/
def layoutCheck (origin : Station) (kind : Nibble) (act : State → State) (s : State) : State :=
  match s.ptb.origin with
  | none => act (s.modPtb fun p => { p with origin := some origin })
  | some o => if o = origin then act s else s.refuse 7 kind .foreign origin

/-- The check of a COMMAND, which claims nothing (R33). -/
def commandCheck (origin : Station) (code : Nibble) (act : State → State) (s : State) : State :=
  match s.ptb.origin with
  | none => act s
  | some o => if o = origin then act s else s.refuse 2 code .foreign origin

/-- A LAYOUT record of a kind, from receive filtering to the Layout store. -/
def layoutParcel (rx : Rx) (kind : Nibble) (act : State → State) (s : State) : State :=
  receive rx true (layoutCheck rx.origin kind act) s

/-- A COMMAND of a code, from receive filtering to the block that takes it. -/
def commandParcel (rx : Rx) (code : Nibble) (act : State → State) (s : State) : State :=
  receive rx true (commandCheck rx.origin code act) s

/-! ## Reading windows and pages -/

/-- A window, at its reset values where it has never been written (R139). -/
def State.window (s : State) (w : Nat) : Window := Tab.get resetWindow w s.win

/-- A window changed by a function. -/
def State.modWindow (w : Nat) (f : Window → Window) (s : State) : State :=
  s.modWin fun t => Tab.put resetWindow w (f (Tab.get resetWindow w t)) t

/-- The window, if any, that shows a page: it is COMPOSING, SHOWING or FROZEN with that page
(R99, R140). -/
def State.showing (s : State) (page : Nat) : Option (Nat × Window) :=
  s.win.find? (fun e => decide (e.2.state ≠ .empty) && decide (e.2.page = some page))

/-- A page is shown in a window other than w (R140). -/
def State.shownElsewhere (s : State) (page w : Nat) : Bool :=
  s.win.any (fun e => decide (e.1 ≠ w) && decide (e.2.state ≠ .empty) && decide (e.2.page = some page))

/-- The indices of the visible fields of a page in a window of a height: bound fields of the page
with row below the height, in ascending field index (R117, R140). -/
def visibleFields (fields : Tab Field) (page height : Nat) : List Nat :=
  (fields.filter (fun e => decide (e.2.page = page) && decide (e.2.row < height))).map (fun e => e.1)

end Sys2Proof.Machine
end

