-- ==== Sys2Proof/Machine/Compose.lean ====
section
/-! DEFINITION. The plane and the compose burst list, paint requests, and the compose of a page:
its beginning, its phases, its end, its abandonment and release, and carousel step selection
(spec/07 R116, R124, R133; spec/08 R141 to R149; spec/10 R178, R179). -/

namespace Sys2Proof.Machine

/-! ## The plane -/

/-- The index of a plane cell. -/
def planeAddr (row column : Nat) : Nat := 256 * row + column

/-- The plane row of an index. -/
def planeRow (addr : Nat) : Nat := addr / 256

/-- The cell at a position of the plane. -/
def State.cell (s : State) (row column : Nat) : Cell :=
  Tab.get resetCell (planeAddr row column) s.cpl.plane

/-- The plane with cells written in a row from a column on (R178). -/
def writeCells (row column : Nat) (cells : List Cell) (plane : Tab Cell) : Tab Cell :=
  Tab.writeRun resetCell (planeAddr row column) cells plane

/-- A window's blank cell (R141). -/
def blankCell (background : Colour) : Cell := { resetCell with bg := background }

/-- The cells of a label run (R103). -/
def LabelRun.cells (r : LabelRun) : List Cell :=
  r.glyphs.map fun g =>
    { glyph := g, fg := r.fg, bg := r.bg, blink := r.blink, underline := false, field := none }

/-! ## Paint requests (R116) -/

/-- The order of the paint kinds, highest first: INITIAL, THAW, ORDINARY, REPAINT (R116). -/
def PaintKind.rank : PaintKind → Nat
  | .initial => 3
  | .thaw => 2
  | .ordinary => 1
  | .repaint => 0

/-- A request taken into the paint queue: at the tail, or on the place the index already has, with
the higher paint kind (R116). -/
def enqueueReq (r : PaintReq) : List PaintReq → List PaintReq
  | [] => [r]
  | q :: t =>
    if q.index = r.index then (if q.kind.rank < r.kind.rank then r :: t else q :: t)
    else q :: enqueueReq r t

/-- Requests of one paint kind, in order. -/
def enqueueAll (kind : PaintKind) (indices : List Nat) (q : List PaintReq) : List PaintReq :=
  indices.foldl (fun q i => enqueueReq { index := i, kind := kind } q) q

def State.enqueue (kind : PaintKind) (indices : List Nat) (s : State) : State :=
  s.modPnt fun p => { p with queue := enqueueAll kind indices p.queue }

/-! ## The end of a compose -/

/-- The end of a compose (R145). -/
def finishCompose (v : Window) : Window :=
  { v with
    state := if v.freezeReq then .frozen else .showing
    dirty := false
    freezeReq := false
    compose := none }

/-- A compose whose set is empty in the FIELDS phase ends (R145). -/
def settleCompose (w : Nat) (s : State) : State :=
  if (s.window w).compose = some (.fields []) then s.modWindow w finishCompose else s

/-- The compose set with an index taken out. -/
def Compose.without (f : Nat) : Compose → Compose
  | .bursts => .bursts
  | .fields set => .fields (NatSet.remove f set)

/-- The compose set holds an index. -/
def Compose.holds (f : Nat) : Compose → Bool
  | .bursts => false
  | .fields set => set.contains f

/-- The window whose compose set holds an index. -/
def State.composingOf (s : State) (f : Nat) : Option Nat :=
  (s.win.find? (fun e => e.2.compose.any (Compose.holds f))).map (fun e => e.1)

/-- The report that a field's initial paint is done (R143). -/
def initialDone (f : Nat) (s : State) : State :=
  match s.composingOf f with
  | none => s
  | some w =>
    settleCompose w (s.modWindow w fun v => { v with compose := v.compose.map (Compose.without f) })

/-! ## What follows the last burst of a hand-over -/

/-- The FIELDS phase of a compose in its BURSTS phase: the compose set, its INITIAL requests, and the
end when the set is empty (R142). -/
def enterFields (w : Nat) (s : State) : State :=
  match (s.window w).page with
  | none => s
  | some p =>
    if (s.window w).compose = some .bursts then
      let set := visibleFields s.lay.fields p (s.window w).height
      settleCompose w
        ((s.modWindow w fun v => { v with compose := some (.fields set) }).enqueue .initial set)
    else s

/-- A field's cells meet a region of its page within the height of the window that shows it, as the
windows stand when the last burst is written (R103; assumption 38). -/
def meets (s : State) (f : Field) (r : Region) : Bool :=
  decide (f.page = r.page) && decide (f.row = r.row)
    && decide (f.column < r.column + r.length) && decide (r.column < f.column + f.width)
    && (s.showing r.page).any (fun e => decide (r.row < e.2.height))

/-- The fields that meet one of some regions, in ascending field index (R103). The regions are the
record's own old and new cells, not those of the other runs it repaints (assumption 45). -/
def meetingFields (s : State) (regions : List Region) : List Nat :=
  (s.lay.fields.filter (fun e => regions.any (meets s e.2))).map (fun e => e.1)

/-- What follows when the last burst of a hand-over is written. -/
def runAfter (a : After) (s : State) : State :=
  match a with
  | .nothing => s
  | .initial fields => s.enqueue .initial fields
  | .repaint regions => s.enqueue .repaint (meetingFields s regions)
  | .fieldsPhase w => enterFields w s

/-! ## The compose burst list (R179) -/

/-- The room of the compose burst list. -/
def burstRoom : Nat := 1024

/-- The last burst of a list carries what follows it. -/
def closeLast (a : After) : List Burst → List Burst
  | [] => []
  | [b] => [{ b with after := a }]
  | b :: c :: t => b :: closeLast a (c :: t)

/-- Bursts at the tail of the list. -/
def listBursts (bursts : List Burst) (s : State) : State :=
  s.modCpl fun c => { c with bursts := c.bursts ++ bursts }

/-- Bursts handed over to the list, with what follows when the last of them is written. A burst that
finds the list full is not listed and is reported as written at once, so that what follows a last
burst of that kind follows at once, whatever waits before it (R142, R179; assumption 36). -/
def handOver (bursts : List Burst) (a : After) (s : State) : State :=
  let room := burstRoom - s.cpl.bursts.length
  if bursts.isEmpty || decide (room < bursts.length) then runAfter a (listBursts (bursts.take room) s)
  else listBursts (closeLast a bursts) s

/-- One plane row filled with a cell. -/
def rowBurst (kind : BurstKind) (owner : Owner) (columns row : Nat) (c : Cell) : Burst :=
  { kind := kind, row := row, column := 0, cells := List.replicate columns c, owner := owner, after := .nothing }

/-- A label run painted in a window of a top row (R103). -/
def labelBurst (owner : Owner) (top : Nat) (r : LabelRun) : Burst :=
  { kind := .label, row := top + r.row, column := r.column, cells := r.cells, owner := owner, after := .nothing }

/-- The bursts of a compose: the row clears of the band, then the label runs of the page within the
height, in ascending run index (R141). -/
def composeBursts (s : State) (w page : Nat) : List Burst :=
  let v := s.window w
  (List.range v.height).map
      (fun r => rowBurst .rowClear (.window w) (cols s.straps) (v.top + r) (blankCell v.background))
    ++ (s.lay.labels.filter (fun e => decide (e.2.page = page) && decide (e.2.row < v.height))).map
      (fun e => labelBurst (.window w) v.top e.2)

/-! ## Abandoning and releasing a page (R124, R133, R146) -/

/-- A paint state with its flash ended, the stick kept. -/
def endFlash (states : Tab PaintState) (f : Nat) : Tab PaintState :=
  Tab.put initialPaint f { Tab.get initialPaint f states with flash := .none } states

/-- A field index is bound to a page. -/
def onPage (fields : Tab Field) (page f : Nat) : Bool :=
  (Tab.look f fields).any (fun x => decide (x.page = page))

/-- The highlight entries of a page's fields removed, their flashes NONE (R133). -/
def unlightPage (page : Nat) (s : State) : State :=
  s.modPnt fun p =>
    { p with
      highlights := p.highlights.filter (fun h => !onPage s.lay.fields page h.index)
      states := ((p.highlights.filter (fun h => onPage s.lay.fields page h.index)).map
        Highlight.index).foldl endFlash p.states }

/-- The painter's burst when the page it was made for is released: withdrawn before its grant,
marked after it (R124). -/
def releaseBurst (page : Nat) (b : PaintBurst) : Option PaintBurst :=
  if b.page = page then
    if b.stage = .waiting then none else some { b with released := true }
  else some b

/-- A granted compose burst whose compose is abandoned tells no one (R146). -/
def disown (w : Nat) (t : Write) : Write :=
  match t.by_ with
  | .compose (.window v) _ =>
    if v = w then { t with by_ := .compose (.window v) .nothing } else t
  | .compose .layout _ => t
  | .crawl => t
  | .painter => t
  | .status => t

/-- The compose bursts of a window withdrawn, every one that the window owns (R146, R179). -/
def withdrawBursts (w : Nat) (s : State) : State :=
  s.modCpl fun c =>
    { c with
      bursts := c.bursts.filter (fun b => decide (b.owner ≠ .window w))
      granted := c.granted.map (disown w) }

/-- The compose bursts of a window withdrawn where it has a compose in flight to abandon. A SHOWING or
FROZEN window's page is released, and bursts of its ended compose that still wait are written (R146,
R179). -/
def abandonBursts (w : Nat) (s : State) : State :=
  if (s.window w).state = .composing then withdrawBursts w s else s

/-- A window that has lost its page: EMPTY until the event's next step (R146). -/
def emptied (v : Window) : Window :=
  { v with
    state := .empty
    page := none
    dirty := false
    freezeReq := false
    compose := none
    advanceDue := false }

/-- A window's compose abandoned, or its page released (R146). -/
def endPage (w : Nat) (s : State) : State :=
  match (s.window w).page with
  | none => s
  | some p =>
    (abandonBursts w
      ((unlightPage p s).modPnt fun q => { q with burst := q.burst.bind (releaseBurst p) })).modWindow
        w emptied

/-- The beginning of a compose of a page in a window (R141). -/
def beginCompose (w page : Nat) (s : State) : State :=
  let s1 := (endPage w s).modWindow w fun v =>
    { v with state := .composing, page := some page, compose := some .bursts }
  handOver (composeBursts s1 w page) (.fieldsPhase w) s1

/-! ## Carousel programs (R109, R147, R149) -/

/-- A step of a window's carousel program. -/
def State.stepAt (s : State) (w i : Nat) : Step := Tab.get defaultStep (16 * w + i) s.lay.steps

/-- The steps from index i on that hold a page, up to the first that holds none. -/
def stepsFrom (s : State) (w : Nat) : Nat → Nat → Nat
  | 0, _ => 0
  | fuel + 1, i => if (s.stepAt w i).page.isSome then stepsFrom s w fuel (i + 1) + 1 else 0

/-- The length L of a window's program, 0..16 (R109). -/
def State.programLength (s : State) (w : Nat) : Nat := stepsFrom s w 16 0

/-- The steps examined in turn: how many are skipped because their page is shown in another window,
and the step then chosen, if any (R147). -/
def examineSteps (s : State) (w : Nat) : List Nat → Nat × Option Nat
  | [] => (0, none)
  | i :: t =>
    if (s.stepAt w i).page.any (fun q => s.shownElsewhere q w) then
      ((examineSteps s w t).1 + 1, (examineSteps s w t).2)
    else (0, some i)

/-- Several carousel skips reported. -/
def tallySkips : Nat → State → State
  | 0, s => s
  | n + 1, s => tallySkips n s.tallySkip

/-- A window whose carousel has come to a step with its full dwell (R147). -/
def atStep (i dwell : Nat) (v : Window) : Window :=
  { v with step := i, dwell := 16 * dwell, advanceDue := false, dwellDue := false }

/-- Step selection from an index (R147; assumption 30); a program of no steps selects nothing. -/
def selectStep (w i : Nat) (s : State) : State :=
  let n := s.programLength w
  if n = 0 then s
  else
    let i0 := if i < n then i else 0
    let (skips, chosen) := examineSteps s w ((List.range n).map fun k => (i0 + k) % n)
    let s1 := tallySkips skips s
    match chosen with
    | none => s1.modWindow w (atStep i0 (s.stepAt w i0).dwell)
    | some j =>
      let s2 := s1.modWindow w (atStep j (s.stepAt w j).dwell)
      match (s.stepAt w j).page with
      | none => s2
      | some q => if (s.window w).page = some q then s2 else beginCompose w q s2

/-- The carousel stopped with step index 0 by a program of no steps; its remaining dwell stands and
advance-due is cleared (R149, R151; assumption 39). -/
def stopped (v : Window) : Window :=
  { v with carousel := .stopped, step := 0, advanceDue := false, dwellDue := false }

/-- An advance of a window's carousel (R149). -/
def advance (w : Nat) (s : State) : State :=
  if s.programLength w = 0 then s.modWindow w stopped else selectStep w ((s.window w).step + 1) s

/-- What a dwell expiry does: FROZEN sets advance-due, otherwise the carousel advances (R149). -/
def expireDwell (w : Nat) (s : State) : State :=
  if (s.window w).state = .frozen then
    s.modWindow w fun v => { v with advanceDue := true, dwellDue := false }
  else advance w s

end Sys2Proof.Machine
end

