-- ==== Sys2Proof/Machine/Items.lean ====
section
/-! DEFINITION. Item codes and selectors (spec/04, section 4.2), and the storing of a received
value (R57). -/

namespace Sys2Proof.Machine

/-- The item code. -/
def Item.code : Item → Nat
  | .bid => 0
  | .ask => 1
  | .last => 2
  | .bsize => 3
  | .asize => 4
  | .volume => 5
  | .opening => 6
  | .high => 7
  | .low => 8
  | .close => 9
  | .time => 10
  | .condition => 11

/-- The item of a code; codes 12..15 name none (R37). -/
def Item.ofCode (c : Nat) : Option Item :=
  match c with
  | 0 => some .bid
  | 1 => some .ask
  | 2 => some .last
  | 3 => some .bsize
  | 4 => some .asize
  | 5 => some .volume
  | 6 => some .opening
  | 7 => some .high
  | 8 => some .low
  | 9 => some .close
  | 10 => some .time
  | 11 => some .condition
  | _ => none

/-- The twelve item codes. -/
def itemCodes : List Nat := List.range 12

/-- The selector of a FIELD entry's item nibble; 15 names none (R97). -/
def Selector.ofCode (c : Nat) : Option Selector :=
  match c with
  | 12 => some .netchg
  | 13 => some .pctchg
  | 14 => some .spread
  | c => (Item.ofCode c).map .stored

/-- The largest magnitude of a price mantissa. -/
def maxMantissa : Int := 999999999

/-- A number limited to a range. -/
def clampInt (lo hi x : Int) : Int := if x < lo then lo else if hi < x then hi else x

/-- A price as stored (R57). -/
def storePrice (r : Received) : Stored :=
  let m := clampInt (-maxMantissa) maxMantissa r.value.toInt
  { content := .price m r.scale.toNat, clamped := decide (m ≠ r.value.toInt) }

/-- A size as stored (R57). -/
def storeSize (r : Received) : Stored :=
  { content := .size r.value.toNat, clamped := false }

/-- A time of day as stored (R57). -/
def storeSeconds (r : Received) : Stored :=
  let t := clampInt 0 86399 r.value.toInt
  { content := .seconds t.toNat, clamped := decide (t ≠ r.value.toInt) }

/-- A condition code as stored (R57). -/
def storeCode (r : Received) : Stored :=
  { content := .code (clampInt 0 15 r.value.toInt).toNat, clamped := false }

/-- How DIR stores a received value of an item (R57). -/
def storeItem (i : Item) (r : Received) : Stored :=
  match i with
  | .bid => storePrice r
  | .ask => storePrice r
  | .last => storePrice r
  | .bsize => storeSize r
  | .asize => storeSize r
  | .volume => storeSize r
  | .opening => storePrice r
  | .high => storePrice r
  | .low => storePrice r
  | .close => storePrice r
  | .time => storeSeconds r
  | .condition => storeCode r

/-- A received value stored under an item code; a code that names no item stores nothing. -/
def storeCoded (items : Tab Stored) (e : Nat × Received) : Tab Stored :=
  match Item.ofCode e.1 with
  | some i => Tab.insert e.1 (storeItem i e.2) items
  | none => items

/-- The stored items after an entry's items are applied (R58). -/
def storeItems (received : Tab Received) (items : Tab Stored) : Tab Stored :=
  received.foldl storeCoded items

/-- The value of a stored item (R75). -/
def storedValue (items : Tab Stored) (i : Item) : Value :=
  match Tab.look i.code items with
  | none => .absent
  | some v => if v.clamped then .clamped v.content else .present v.content

end Sys2Proof.Machine
end

