-- ==== Sys2Proof/Machine/Format.lean ====
section
/-! DEFINITION. Value arithmetic and formatting, FMT
(spec/05_value_arithmetic_and_formatting.md). Every function here is a function of its inputs
alone: FMT keeps no state (R74). -/

namespace Sys2Proof.Machine

/-! ## Rounding and comparison -/

/-- The exact quotient n / d rounded half away from zero (R76). -/
def roundDiv (n : Int) (d : Nat) : Int :=
  let q : Nat := (2 * n.natAbs + d) / (2 * d)
  if n < 0 then -(q : Int) else (q : Int)

/-- A mantissa of scale s brought to a scale S ≥ s. -/
def alignTo (big s : Nat) (m : Int) : Int := m * (10 : Int) ^ (big - s)

/-- The exact difference a − b of two scaled numbers, with its scale (R78). -/
def exactDiff (ma : Int) (sa : Nat) (mb : Int) (sb : Nat) : Int × Nat :=
  let big := max sa sb
  (alignTo big sa ma - alignTo big sb mb, big)

/-- The integers of two values of one kind that compare as the values do (R77). -/
def comparable (a b : Content) : Option (Int × Int) :=
  match a, b with
  | .price m s, .price n t => some (alignTo (max s t) s m, alignTo (max s t) t n)
  | .percentage m s, .percentage n t => some (alignTo (max s t) s m, alignTo (max s t) t n)
  | .size m, .size n => some (m, n)
  | .seconds m, .seconds n => some (m, n)
  | .code m, .code n => some (m, n)
  | _, _ => none

/-- The direction from an old value to a new one (R81; assumption 29). -/
def direction (old : Option Value) (new : Value) : Direction :=
  match old, new with
  | some (.present a), .present b =>
    match comparable a b with
    | some (x, y) => if x < y then .up else if y < x then .down else .equal
    | none => .none
  | _, _ => .none

/-- The number whose sign a value's contents carry. -/
def Content.number : Content → Int
  | .price m _ => m
  | .percentage p _ => p
  | .size n => n
  | .seconds n => n
  | .code n => n

/-- The sign of a number. -/
def signOf (x : Int) : Sign := if 0 < x then .positive else if x < 0 then .negative else .zero

/-- The sign of a value (R82). -/
def sign : Value → Sign
  | .absent => .none
  | .clamped c => signOf c.number
  | .present c => signOf c.number

/-! ## Derived items -/

/-- The mantissa 999,999,999 with the sign of a number, or 0 (R78, R80). -/
def limitWithSign (x : Int) : Int := if 0 < x then maxMantissa else if x < 0 then -maxMantissa else 0

/-- The first reduced scale k, k + 1, … at which an exact difference fits the price range (R79);
`fuel` counts the scales left to try. -/
def reduceScale (r : Int) (big : Nat) : Nat → Nat → Value
  | 0, _ => .clamped (.price (limitWithSign r) 0)
  | fuel + 1, k =>
    let c := roundDiv r (10 ^ k)
    if c.natAbs ≤ maxMantissa.natAbs then .present (.price c (big - k))
    else reduceScale r big fuel (k + 1)

/-- A difference brought into the price range (R79). -/
def fitPrice (r : Int) (big : Nat) : Value :=
  if r.natAbs ≤ maxMantissa.natAbs then .present (.price r big) else reduceScale r big big 1

/-- The mantissa, scale and clamped flag of a stored price. -/
def pricePart (v : Stored) : Int × Nat × Bool :=
  match v.content with
  | .price m s => (m, s, v.clamped)
  | .percentage _ _ => (0, 0, v.clamped)
  | .size _ => (0, 0, v.clamped)
  | .seconds _ => (0, 0, v.clamped)
  | .code _ => (0, 0, v.clamped)

/-- The difference of two price items (R78). -/
def difference (items : Tab Stored) (a b : Item) : Value :=
  match Tab.look a.code items, Tab.look b.code items with
  | some x, some y =>
    let (ma, sa, ca) := pricePart x
    let (mb, sb, cb) := pricePart y
    let (r, big) := exactDiff ma sa mb sb
    if ca || cb then .clamped (.price (limitWithSign r) 0) else fitPrice r big
  | _, _ => .absent

/-- The exact quotient (L − C) × 100 / |C| of R80 as numerator and denominator; none when LAST or
CLOSE is ABSENT or CLOSE is 0. The flag says that an input is CLAMPED. -/
def pctQuotient (items : Tab Stored) : Option (Int × Nat × Bool) :=
  match Tab.look Item.last.code items, Tab.look Item.close.code items with
  | some x, some y =>
    let (ml, sl, cl) := pricePart x
    let (mc, sc, cc) := pricePart y
    if mc = 0 then none
    else
      let (r, big) := exactDiff ml sl mc sc
      some (r * 100, (alignTo big sc mc).natAbs, cl || cc)
  | _, _ => none

/-- PCTCHG at d percentage decimals (R80). -/
def pctValue (items : Tab Stored) (d : Nat) : Value :=
  match pctQuotient items with
  | none => .absent
  | some (num, den, clamped) =>
    let p := roundDiv (num * (10 : Int) ^ d) den
    if clamped ∨ maxMantissa.natAbs < p.natAbs then .clamped (.percentage (limitWithSign num) d)
    else .present (.percentage p d)

/-! ## Format coercion -/

/-- The percentage decimals of a PCTCHG field (R84). -/
def pctDecimals : Format → Nat
  | .dec (some d) => min d 4
  | .dec none => 2
  | .frac k => min k 4
  | .bond p => min p 4
  | .timeHms _ => 2
  | .timeHm _ => 2
  | .cond _ => 2

/-- The field value of an item selector under a format (R75). -/
def fieldValue (sel : Selector) (fmt : Format) (items : Tab Stored) : Value :=
  match sel with
  | .stored i => storedValue items i
  | .netchg => difference items .last .close
  | .spread => difference items .ask .bid
  | .pctchg => pctValue items (pctDecimals fmt)

/-- The effective formats of a PRESENT value (R83), with AUTO settled. -/
inductive Effective where
  | dec (d : Nat)
  | frac (k : Nat)
  | bond
  | timeHms
  | timeHm
  | cond
deriving DecidableEq, Repr

/-- The effective format of a value's contents under a field's format (R83). -/
def effective (fmt : Format) (c : Content) : Effective :=
  match c with
  | .price _ s =>
    match fmt with
    | .dec (some d) => .dec d
    | .dec none => .dec s
    | .frac k => .frac k
    | .bond _ => .bond
    | .timeHms _ => .dec s
    | .timeHm _ => .dec s
    | .cond _ => .dec s
  | .percentage _ _ => .dec (pctDecimals fmt)
  | .size _ =>
    match fmt with
    | .dec (some d) => .dec d
    | .dec none => .dec 0
    | .frac _ => .dec 0
    | .bond _ => .dec 0
    | .timeHms _ => .dec 0
    | .timeHm _ => .dec 0
    | .cond _ => .dec 0
  | .seconds _ =>
    match fmt with
    | .timeHm _ => .timeHm
    | .dec _ => .timeHms
    | .frac _ => .timeHms
    | .bond _ => .timeHms
    | .timeHms _ => .timeHms
    | .cond _ => .timeHms
  | .code _ => .cond

/-! ## Characters (R86) -/

def chSpace : Byte := 0x20
def chHash : Byte := 0x23
def chPlus : Byte := 0x2B
def chComma : Byte := 0x2C
def chMinus : Byte := 0x2D
def chPoint : Byte := 0x2E
def chSlash : Byte := 0x2F
def chColon : Byte := 0x3A

/-- The glyph of a decimal digit. -/
def chDigit (d : Nat) : Byte := BitVec.ofNat 8 (0x30 + d % 10)

/-- The low n decimal digits of a number, leading zeros kept. -/
def fixedDigits : Nat → Nat → Text
  | 0, _ => []
  | n + 1, x => fixedDigits n (x / 10) ++ [chDigit x]

/-- How many decimal digits a number has, 1 for 0; `fuel` bounds the count. -/
def digitCount : Nat → Nat → Nat
  | 0, _ => 1
  | fuel + 1, x => if x < 10 then 1 else digitCount fuel (x / 10) + 1

/-- A number in decimal without leading zeros, '0' for 0. -/
def decimal (x : Nat) : Text := fixedDigits (digitCount x x) x

/-- n copies of a glyph. -/
def fill (c : Byte) (n : Nat) : Text := List.replicate n c

/-- A text padded with spaces to a width on the side away from its justification (R85). -/
def padTo (right : Bool) (w : Nat) (t : Text) : Text :=
  if right then fill chSpace (w - t.length) ++ t else t ++ fill chSpace (w - t.length)

/-- A text padded to a width, or the width filled with '#' when the text is longer. -/
def placeOrFill (right : Bool) (w : Nat) (t : Text) : Text :=
  if t.length ≤ w then padTo right w t else fill chHash w

/-! ## DEC -/

/-- The exact number a DEC text is made from: a scaled integer, or the quotient of R80. -/
inductive Exact where
  | scaled (m : Int) (s : Nat)
  | ratio (num : Int) (den : Nat)
deriving DecidableEq, Repr

/-- The integer of the digits at d decimals, N(d) (R87). -/
def digitsAt (x : Exact) (d : Nat) : Int :=
  match x with
  | .scaled m s => if s ≤ d then m * (10 : Int) ^ (d - s) else roundDiv m (10 ^ (s - d))
  | .ratio num den => roundDiv (num * (10 : Int) ^ d) den

/-- Digits with a ',' between every group of three, counted from the last (R87); the digits are
given and answered last first. -/
def groupReversed : Text → Text
  | a :: b :: c :: d :: t => a :: b :: c :: chComma :: groupReversed (d :: t)
  | t => t

/-- The integer part, grouped or not (R87). -/
def integerPart (grouping : Bool) (x : Nat) : Text :=
  if grouping then (groupReversed (decimal x).reverse).reverse else decimal x

/-- The DEC text of N(d) (R87). -/
def decText (n : Int) (d : Nat) (plus grouping : Bool) : Text :=
  (if n < 0 then [chMinus] else if 0 < n ∧ plus then [chPlus] else [])
    ++ integerPart grouping (n.natAbs / 10 ^ d)
    ++ (if 0 < d then chPoint :: fixedDigits d (n.natAbs % 10 ^ d) else [])

/-- The attempts of R88 in order: decimals d, d − 1, …, 0 with the grouping setting. -/
def decAttempts (x : Exact) (plus grouping : Bool) : Nat → List Text
  | 0 => [decText (digitsAt x 0) 0 plus grouping]
  | d + 1 => decText (digitsAt x (d + 1)) (d + 1) plus grouping :: decAttempts x plus grouping d

/-- The DEC text of a field: the first attempt that fits, then the ungrouped text at decimals 0,
then '#' (R88). -/
def decField (x : Exact) (d w : Nat) (right plus grouping : Bool) : Text :=
  match (decAttempts x plus grouping d ++ [decText (digitsAt x 0) 0 plus false]).find?
      (fun t => t.length ≤ w) with
  | some t => padTo right w t
  | none => fill chHash w

/-! ## FRAC, BOND, times and condition texts -/

/-- The sign of a FRAC or BOND text (R89). -/
def fracSign (m : Int) (n : Nat) (plus : Bool) : Text :=
  if n = 0 then [] else if m < 0 then [chMinus] else if plus then [chPlus] else []

/-- The FRAC k text of a price (R89). -/
def fracText (m : Int) (s k : Nat) (plus : Bool) : Text :=
  let den := 2 ^ k
  let n := (roundDiv ((m.natAbs * den : Nat) : Int) (10 ^ s)).natAbs
  fracSign m n plus ++ decimal (n / den)
    ++ (if n % den = 0 then [] else chSpace :: decimal (n % den) ++ chSlash :: decimal den)

/-- The BOND text of a price (R90). -/
def bondText (m : Int) (s : Nat) (plus : Bool) : Text :=
  let n := (roundDiv ((m.natAbs * 64 : Nat) : Int) (10 ^ s)).natAbs
  fracSign m n plus ++ decimal (n / 64) ++ [chMinus] ++ fixedDigits 2 (n % 64 / 2)
    ++ (if n % 2 = 1 then [chPlus] else [])

/-- The TIME_HM text (R91). -/
def hmText (t : Nat) : Text :=
  fixedDigits 2 (t / 3600) ++ [chColon] ++ fixedDigits 2 (t % 3600 / 60)

/-- The TIME_HMS text (R91). -/
def hmsText (t : Nat) : Text := hmText t ++ [chColon] ++ fixedDigits 2 (t % 60)

/-- A condition label is blank when all its characters are spaces (R92). -/
def isBlank (label : Text) : Bool := label.all (fun c => c = chSpace)

/-- The label of a condition code. -/
def condLabel (labels : Tab Text) (c : Nat) : Text := Tab.get blankCondLabel c labels

/-- The condition text of a code at a width (R92). -/
def condText (labels : Tab Text) (c w : Nat) (right : Bool) : Text :=
  if isBlank (condLabel labels c) then placeOrFill right w (decimal c)
  else (condLabel labels c ++ fill chSpace (w - (condLabel labels c).length)).take w

/-! ## Field text and natural-width text -/

/-- The exact number of a PRESENT value; a percentage is taken from the exact quotient of R80. DESIGN
CHOICE: a NETCHG or SPREAD is taken as the price R79 gives, also where R79 has rounded it, so that its
text may be rounded a second time (R87 beside R76; assumption 46). -/
def exactOf (items : Tab Stored) (c : Content) : Exact :=
  match c with
  | .price m s => .scaled m s
  | .percentage p d =>
    match pctQuotient items with
    | some (num, den, _) => .ratio num den
    | none => .scaled p d
  | .size n => .scaled n 0
  | .seconds n => .scaled n 0
  | .code n => .scaled n 0

/-- The mantissa and scale FRAC and BOND read (R89, R90); of a NETCHG or SPREAD those R79 gives, rounded
or not (assumption 46). -/
def Content.priceOf : Content → Int × Nat
  | .price m s => (m, s)
  | .percentage p d => (p, d)
  | .size n => (n, 0)
  | .seconds n => (n, 0)
  | .code n => (n, 0)

/-- The text of a PRESENT value in an effective format (R85). -/
def presentText (f : Field) (labels : Tab Text) (items : Tab Stored) (c : Content) : Text :=
  match effective f.format c with
  | .dec d => decField (exactOf items c) d f.width f.right f.plus f.grouping
  | .frac k => placeOrFill f.right f.width (fracText c.priceOf.1 c.priceOf.2 k f.plus)
  | .bond => placeOrFill f.right f.width (bondText c.priceOf.1 c.priceOf.2 f.plus)
  | .timeHms => placeOrFill f.right f.width (hmsText c.number.toNat)
  | .timeHm => placeOrFill f.right f.width (hmText c.number.toNat)
  | .cond => condText labels c.number.toNat f.width f.right

/-- The field text: exactly W glyphs (R85). -/
def fieldText (f : Field) (labels : Tab Text) (items : Tab Stored) : Text :=
  match fieldValue f.selector f.format items with
  | .absent => fill chSpace f.width
  | .clamped _ => fill chHash f.width
  | .present c => presentText f labels items c

/-- The scale that a value's own contents have. -/
def Content.scale : Content → Nat
  | .price _ s => s
  | .percentage _ d => d
  | .size _ => 0
  | .seconds _ => 0
  | .code _ => 0

/-- The natural-width text of a value of a record's items: its DEC text at the given decimals, or at the
value's own scale for AUTO, neither grouped nor fitted nor padded (R93). A percentage is written from the
exact quotient of the items (R87). -/
def naturalText (items : Tab Stored) (v : Value) (decimals : Option Nat) (plus : Bool) : Text :=
  match v with
  | .absent => []
  | .clamped _ => [chHash]
  | .present c =>
    let d := decimals.getD c.scale
    decText (digitsAt (exactOf items c) d) d plus false

end Sys2Proof.Machine
end

