-- ==== Sys2Proof/Machine/Paint.lean ====
section
/-! DEFINITION. The Painter, PNT: the service of the paint queue, the commit of a written burst and
the highlight expiry list (spec/07_field_painting_and_tick_highlighting.md). -/

namespace Sys2Proof.Machine

/-! ## What a service reads -/

/-- The stored items of a key's record. -/
def State.items (s : State) (k : Key) : Tab Stored :=
  match Tab.look k.toNat s.dir.records with
  | none => []
  | some r => r.items

/-- A policy of the policy table. -/
def State.policy (s : State) (i : Nat) : Policy := Tab.get defaultPolicy i s.lay.policies

/-- The paint state of a field index. -/
def State.paintState (s : State) (i : Nat) : PaintState := Tab.get initialPaint i s.pnt.states

/-- The paint state of a field index changed. -/
def State.modPaint (i : Nat) (f : PaintState → PaintState) (s : State) : State :=
  s.modPnt fun p =>
    { p with states := Tab.put initialPaint i (f (Tab.get initialPaint i p.states)) p.states }

/-- Where a field index shows: its field, and the window that shows the field's page with the field's
row below its height. None is one of the first three cases of R119. -/
def paintSite (s : State) (i : Nat) : Option (Field × Nat × Window) :=
  match Tab.look i s.lay.fields with
  | none => none
  | some f =>
    match s.showing f.page with
    | none => none
    | some (w, v) => if f.row < v.height then some (f, w, v) else none

/-! ## The text (R121) -/

/-- The TEST text of a field index at a width (R121). -/
def testText (i w : Nat) : Text := placeOrFill true w (decimal i)

/-- The text of an override mode, if it replaces the text (R121, order 1). -/
def overrideText (m : OverrideMode) (i w : Nat) : Option Text :=
  match m with
  | .none => none
  | .dash => some (fill chMinus w)
  | .test => some (testText i w)

/-- The text of a substitution, if it replaces the text (R121, order 2). -/
def substText (m : Subst) (w : Nat) : Option Text :=
  match m with
  | .live => none
  | .dash => some (fill chMinus w)
  | .blank => some (fill chSpace w)

/-- The selectors whose text a condition label replaces (R121, order 3). -/
def takesCondition : Selector → Bool
  | .stored .bid => true
  | .stored .ask => true
  | .stored .bsize => true
  | .stored .asize => true
  | .stored .last => false
  | .stored .volume => false
  | .stored .opening => false
  | .stored .high => false
  | .stored .low => false
  | .stored .close => false
  | .stored .time => false
  | .stored .condition => false
  | .netchg => false
  | .pctchg => false
  | .spread => false

/-- The code of a record's CONDITION when it is PRESENT and not 0. -/
def conditionCode (items : Tab Stored) : Option Nat :=
  match storedValue items .condition with
  | .present (.code c) => if c = 0 then none else some c
  | .present (.price _ _) => none
  | .present (.percentage _ _) => none
  | .present (.size _) => none
  | .present (.seconds _) => none
  | .absent => none
  | .clamped _ => none

/-- The condition text in place of a field's own, where R121's order 3 applies. -/
def conditionText (f : Field) (labels : Tab Text) (items : Tab Stored) : Option Text :=
  if takesCondition f.selector then
    match conditionCode items with
    | none => none
    | some c => if isBlank (condLabel labels c) then none else some (condText labels c f.width f.right)
  else none

/-- The text of a serviced field and its text kind (R121). -/
def paintText (i : Nat) (f : Field) (m : OverrideMode) (labels : Tab Text) (items : Tab Stored) :
    Text × TextKind :=
  match overrideText m i f.width with
  | some t => (t, .overridden)
  | none =>
    match substText f.subst f.width with
    | some t => (t, .substituted)
    | none =>
      match conditionText f labels items with
      | some t => (t, .condition)
      | none => (fieldText f labels items, .value)

/-- The text kinds of a paint that shows the field's own text. -/
def TextKind.isOwn : TextKind → Bool
  | .none => false
  | .value => true
  | .condition => true
  | .substituted => false
  | .overridden => false

/-- The cells of a field burst (R122). -/
def fieldCells (i : Nat) (f : Field) (t : Text) (k : TextKind) : List Cell :=
  t.map fun c =>
    { glyph := c.setWidth 9, fg := f.fg, bg := f.bg, blink := f.blink,
      underline := decide (k = .condition), field := some i }

/-- Whether a paint asks for the direction (R121). -/
def asksDirection (kind : PaintKind) (k : TextKind) : Bool :=
  decide (kind = .thaw) || (decide (kind = .ordinary) && k.isOwn)

/-- The burst of a service, with what the commit will need (R121, R122; assumption 28). -/
def paintBurst (s : State) (q : PaintReq) (f : Field) (v : Window) : PaintBurst :=
  let items := s.items f.key
  let t := paintText q.index f v.override s.lay.condLabels items
  let value := fieldValue f.selector f.format items
  let p := s.policy f.policy
  { index := q.index, page := f.page, kind := q.kind, textKind := t.2, value := value
    dir := if asksDirection q.kind t.2 then direction (s.paintState q.index).lastValue value else .none
    mode := p.mode, hold := p.hold, touch := p.touch
    row := v.top + f.row, column := f.column, cells := fieldCells q.index f t.1 t.2
    stage := .waiting, unbound := false, released := false }

/-! ## Service (R118 to R120) -/

/-- The due sweep of a paint that the throttle holds back (R120). -/
def heldUntil (now : Sweep) (throttle : Nat) (lastPaint : Option Sweep) : Option Sweep :=
  match lastPaint with
  | none => none
  | some p => if (now - p).toNat < throttle then some (p + BitVec.ofNat 32 throttle) else none

/-- A skipped entry: an INITIAL one is reported as done (R119). -/
def skipReq (q : PaintReq) (s : State) : State :=
  if q.kind = .initial then initialDone q.index s else s

/-- A paint held back: pending set, or left with the due sweep it has (R120). -/
def holdBack (due : Sweep) (p : PaintState) : PaintState :=
  { p with pending := some (p.pending.getD due) }

/-- The throttle test and what follows it (R118 steps 2 to 4, R120). -/
def paintReq (q : PaintReq) (f : Field) (v : Window) (s : State) : State :=
  match (if q.kind = .ordinary then heldUntil s.now f.throttle (s.paintState q.index).lastPaint else none) with
  | some due => s.modPaint q.index (holdBack due)
  | none => s.modPnt fun p => { p with burst := some (paintBurst s q f v) }

/-- The service of an entry that has left the queue (R118, R119). -/
def serveReq (q : PaintReq) (s : State) : State :=
  match paintSite s q.index with
  | none => skipReq q s
  | some (f, w, v) =>
    if v.state = .frozen then skipReq q (s.modWindow w fun v => { v with dirty := true })
    else paintReq q f v s

/-- PNT begins the service of the head entry when no painter burst is in flight (R118). -/
def servePaint (s : State) : State :=
  match s.pnt.burst, s.pnt.queue with
  | none, q :: t => serveReq q (s.modPnt fun p => { p with queue := t })
  | none, [] => s
  | some _, _ => s

/-- PAINT_SERVICE (R118). -/
def execPaintService (s : State) : Result := running servePaint s

/-! ## The highlight expiry list (R130 to R132) -/

/-- The room of the highlight expiry list. -/
def highlightRoom : Nat := 128

/-- How far ahead of now an entry is due; a due sweep already reached is 0 ahead (R130; assumption 31). -/
def ahead (now : Sweep) (h : Highlight) : Nat := if reached now h.due then 0 else (h.due - now).toNat

/-- An entry placed in due-sweep order, after the entries due at the same sweep (R131). -/
def placeHighlight (now : Sweep) (h : Highlight) : List Highlight → List Highlight
  | [] => [h]
  | g :: t => if ahead now h < ahead now g then h :: g :: t else g :: placeHighlight now h t

/-- The mode of the policy a field index names. -/
def modeOf (l : Lay) (i : Nat) : PolicyMode :=
  match Tab.look i l.fields with
  | none => .none
  | some f => (Tab.get defaultPolicy f.policy l.policies).mode

/-- The stick after a flash has run out (R132). -/
def passedStick (m : PolicyMode) (p : PaintState) : Stick :=
  if m = .flashSticky then
    match p.flash with
    | .up => .up
    | .down => .down
    | .touch => p.stick
    | .none => p.stick
  else p.stick

/-- The paint state of a field whose highlight entry expires (R132). -/
def expiredFlash (m : PolicyMode) (p : PaintState) : PaintState :=
  { p with flash := .none, stick := passedStick m p }

/-- The paint states after a field's entry has expired (R132). -/
def expireField (l : Lay) (states : Tab PaintState) (i : Nat) : Tab PaintState :=
  Tab.put initialPaint i (expiredFlash (modeOf l i) (Tab.get initialPaint i states)) states

/-- The head entry expired early (R131). -/
def expireHead (l : Lay) (p : Pnt) : Pnt :=
  match p.highlights with
  | [] => p
  | h :: t => { p with highlights := t, states := expireField l p.states h.index }

/-- A field's entry taken out of the list, without an expiry. -/
def unlist (i : Nat) (hs : List Highlight) : List Highlight := hs.filter (fun h => decide (h.index ≠ i))

/-- A field is listed. -/
def listed (i : Nat) (hs : List Highlight) : Bool := hs.any (fun h => decide (h.index = i))

/-- The list made ready for a field's entry: its own entry out, or room made at the head (R131). -/
def makeRoom (l : Lay) (i : Nat) (p : Pnt) : Pnt :=
  if listed i p.highlights then { p with highlights := unlist i p.highlights }
  else if p.highlights.length < highlightRoom then p
  else expireHead l p

/-- A flash set by a commit, with its entry due at now + hold (R131). -/
def setFlash (i : Nat) (flash : Flash) (hold : Nat) (s : State) : State :=
  (s.modPnt fun p =>
      let p1 := makeRoom s.lay i p
      { p1 with
        highlights :=
          placeHighlight s.now { index := i, due := s.now + BitVec.ofNat 32 hold } p1.highlights }).modPaint
    i fun p => { p with flash := flash }

/-- PNT's expiry of the entries whose due sweep is reached, from the head (R132). -/
def expireHighlights (s : State) : State :=
  s.modPnt fun p =>
    { p with
      highlights := p.highlights.filter (fun h => !reached s.now h.due)
      states := ((p.highlights.filter (fun h => reached s.now h.due)).map Highlight.index).foldl
        (expireField s.lay) p.states }

/-- HIGHLIGHT_EXPIRY (R132). -/
def execHighlightExpiry (s : State) : Result := running expireHighlights s

/-! ## Commit (R123 to R131) -/

/-- The stick of a sign (R128). -/
def signStick : Sign → Stick
  | .positive => .up
  | .negative => .down
  | .zero => .none
  | .none => .none

/-- The stick moved by a direction (R126). -/
def moveStick (d : Direction) (k : Stick) : Stick :=
  match d with
  | .up => .up
  | .down => .down
  | .equal => k
  | .none => k

/-- The flash a direction calls for under FLASH and FLASH_STICKY, if any (R125). -/
def flashOf (d : Direction) (hold : Nat) (touch : Bool) : Option Flash :=
  if hold = 0 then none
  else
    match d with
    | .up => some .up
    | .down => some .down
    | .equal => if touch then some .touch else none
    | .none => none

/-- The flash of an ordinary commit, if it sets one (R125, R127). -/
def ordinaryFlash (b : PaintBurst) : Option Flash :=
  match b.mode with
  | .none => none
  | .flash => flashOf b.dir b.hold b.touch
  | .sticky => none
  | .flashSticky => flashOf b.dir b.hold b.touch
  | .sign => none

/-- The stick after an ordinary commit (R125 to R128). -/
def ordinaryStick (b : PaintBurst) (k : Stick) : Stick :=
  match b.mode with
  | .none => k
  | .flash => k
  | .sticky => moveStick b.dir k
  | .flashSticky => if b.hold = 0 then moveStick b.dir k else k
  | .sign => signStick (sign b.value)

/-- The stick after an INITIAL commit (R129). -/
def initialStick (b : PaintBurst) : Stick :=
  match b.mode with
  | .none => .none
  | .flash => .none
  | .sticky => .none
  | .flashSticky => .none
  | .sign => signStick (sign b.value)

/-- The stick after a THAW commit (R129). -/
def thawStick (b : PaintBurst) (k : Stick) : Stick :=
  match b.mode with
  | .none => k
  | .flash => k
  | .sticky => moveStick b.dir k
  | .flashSticky => moveStick b.dir k
  | .sign => signStick (sign b.value)

/-- What every commit leaves in the paint state: the last paint sweep, pending clear, the text kind
(R123). -/
def painted (now : Sweep) (k : TextKind) (p : PaintState) : PaintState :=
  { p with lastPaint := some now, pending := none, textKind := k }

/-- The paint state after a commit, less a flash that it sets (R123, R129). -/
def committed (now : Sweep) (b : PaintBurst) (p : PaintState) : PaintState :=
  let p1 := painted now b.textKind p
  match b.kind with
  | .initial => { p1 with flash := .none, stick := initialStick b, lastValue := some b.value }
  | .thaw => { p1 with flash := .none, stick := thawStick b p.stick, lastValue := some b.value }
  | .ordinary =>
    if b.textKind.isOwn then { p1 with stick := ordinaryStick b p.stick, lastValue := some b.value } else p1
  | .repaint => p1

/-- An INITIAL or THAW commit removes the field's highlight entry (R129, R133). -/
def PaintKind.startsAfresh : PaintKind → Bool
  | .initial => true
  | .thaw => true
  | .ordinary => false
  | .repaint => false

/-- The flash a commit sets, if the field is still visible (R124, R131; assumption 13). -/
def commitFlash (s : State) (b : PaintBurst) : Option Flash :=
  if b.kind = .ordinary && b.textKind.isOwn && !b.released && (paintSite s b.index).isSome then
    ordinaryFlash b
  else none

/-- The commit of a written burst whose field is still bound (R123). -/
def commitBurst (b : PaintBurst) (s : State) : State :=
  let s1 := s.modPaint b.index (committed s.now b)
  let s2 := if b.kind.startsAfresh then
      s1.modPnt fun p => { p with highlights := unlist b.index p.highlights }
    else s1
  let s3 := match commitFlash s b with
    | none => s2
    | some f => setFlash b.index f b.hold s2
  if b.kind = .initial then initialDone b.index s3 else s3

/-- PNT's commit, once the port has reported its burst written (R118, R123, R124). -/
def commitPaint (s : State) : State :=
  match s.pnt.burst with
  | none => s
  | some b =>
    if b.stage = .written then
      let s1 := s.modPnt fun p => { p with burst := none }
      if b.unbound then s1 else commitBurst b s1
    else s

/-- PAINT_COMMIT (R123). -/
def execPaintCommit (s : State) : Result := running commitPaint s

/-! ## Pending release (R120) -/

/-- A held-back paint is due at a sweep number. -/
def pendingDue (now : Sweep) (p : PaintState) : Bool := p.pending.any (reached now)

/-- The paint states with the pending marks of some fields cleared. -/
def clearPending (states : Tab PaintState) (i : Nat) : Tab PaintState :=
  Tab.put initialPaint i { Tab.get initialPaint i states with pending := none } states

/-- The fields whose throttle has run out, in ascending field index (R120). -/
def duePaints (s : State) : List Nat :=
  (s.pnt.states.filter (fun e => pendingDue s.now e.2)).map (fun e => e.1)

/-- PNT releases the paints that are due (R120). -/
def releasePending (s : State) : State :=
  (s.modPnt fun p => { p with states := (duePaints s).foldl clearPending p.states }).enqueue .ordinary
    (duePaints s)

/-- PENDING_RELEASE (R120). -/
def execPendingRelease (s : State) : Result := running releasePending s

end Sys2Proof.Machine
end

