-- ==== Sys2Proof/Machine/Crawl.lean ====
section
/-! DEFINITION. The crawl unit, CRW (spec/09_crawl_chain.md). -/

namespace Sys2Proof.Machine

/-! ## Step tags (R159) -/

/-- The tag of the step at a lap index under an interval. -/
def tagAt (lap interval : Nat) : Byte := BitVec.ofNat 8 (lap / interval % 256)

/-- The lap index of the next step after a lap index. -/
def nextStepLap (lap interval : Nat) : Nat := (lap - lap % interval + interval) % 1024

/-- This step's tag. -/
def State.stepTag (s : State) : Byte := tagAt s.lnk.lap.toNat s.crw.interval

/-- The next step's tag, under the interval in force (R159, R164). -/
def State.nextTag (s : State) : Byte := tagAt (nextStepLap s.lnk.lap.toNat s.crw.interval) s.crw.interval

/-! ## HANDOFF (R165) -/

/-- The cell of a HANDOFF. -/
def handoffCell (b : HandoffBody) : CrawlCell :=
  { glyph := b.glyph, fg := b.fg, bg := b.bg, blink := b.blink }

/-- CRW takes a HANDOFF from its upstream station (R165). -/
def holdHandoff (b : HandoffBody) (s : State) : State :=
  if b.tag = s.nextTag then s.modCrw fun c => { c with hold := some { tag := b.tag, cell := handoffCell b } }
  else s.countUnderLate

/-- CRW takes a HANDOFF: on a link, from station CF; others are ignored (R157, R165). -/
def takeHandoff (origin : Station) (b : HandoffBody) (s : State) : State :=
  match role s.straps with
  | .off => s
  | .head => s
  | .link up => if origin = up then holdHandoff b s else s

/-- HANDOFF (R165). -/
def execHandoff (rx : Rx) (b : HandoffBody) (s : State) : Result :=
  running (receive rx false (takeHandoff rx.origin b)) s

/-! ## The crawl text queue (R168 to R170) -/

/-- The room of the crawl text queue. -/
def crawlRoom : Nat := 1024

/-- The cells of a CRAWLTEXT, its count taken as 24 when above 24 (R22, R169). -/
def textCells (b : CrawlTextBody) : List CrawlCell :=
  (b.chars.take (min b.count.toNat 24)).map fun c =>
    { glyph := c.setWidth 9, fg := b.fg, bg := b.bg, blink := b.blink }

/-- CRW takes a CRAWLTEXT: appended or dropped whole on a head, ignored elsewhere (R169). -/
def takeCrawlText (b : CrawlTextBody) (s : State) : State :=
  match role s.straps with
  | .off => s
  | .link _ => s
  | .head =>
    if s.crw.queue.length + (textCells b).length ≤ crawlRoom then
      s.modCrw fun c => { c with queue := c.queue ++ textCells b }
    else s.tallyTextDrop

/-- CRAWLTEXT (R169). -/
def execCrawlText (rx : Rx) (b : CrawlTextBody) (s : State) : Result :=
  running (receive rx true (takeCrawlText b)) s

/-- CRW takes a CRAWL FLUSH (R170). -/
def flushCrawl (s : State) : State :=
  match role s.straps with
  | .off => s
  | .link _ => s
  | .head => s.modCrw fun c => { c with queue := [] }

/-- CRAWL_FLUSH (R170). -/
def execCrawlFlush (rx : Rx) (s : State) : Result := running (commandParcel rx 8 flushCrawl) s

/-! ## Quote entries (R172 to R174) -/

/-- A text in crawl colours, blink clear. -/
def crawlText (fg bg : Colour) (t : Text) : List CrawlCell :=
  t.map fun c => { glyph := c.setWidth 9, fg := fg, bg := bg, blink := false }

/-- The gap after a quote entry. -/
def quoteGap : Text := spaces 3

/-- The text of a quote entry without figures. -/
def noQuote : Text := fill chMinus 3

/-- A label up to its last character that is not a space. -/
def trimLabel (t : Text) : Text := (t.reverse.dropWhile (fun c => decide (c = chSpace))).reverse

/-- The fg of a net change (R174). -/
def netColour (g : Global) (p : Policy) (v : Value) : Colour :=
  match sign v with
  | .positive => p.upStick
  | .negative => p.downStick
  | .zero => g.crawlFg
  | .none => g.crawlFg

/-- The space and net change of a quote entry; left out when NETCHG is ABSENT (R172). -/
def netPart (g : Global) (p : Policy) (items : Tab Stored) (v : Value) : List CrawlCell :=
  if v = .absent then []
  else
    crawlText g.crawlFg g.crawlBg [chSpace]
      ++ crawlText (netColour g p v) g.crawlBg (naturalText items v none true)

/-- LAST of a record whose quote shows figures: LIVE, with LAST present (R172, R173). -/
def quotedLast (r : Option Record) : Option Value :=
  match r with
  | none => none
  | some r =>
    if r.state = .live ∧ storedValue r.items .last ≠ .absent then some (storedValue r.items .last) else none

/-- NETCHG of a record (R78). -/
def netChange (r : Option Record) : Value :=
  match r with
  | none => .absent
  | some r => difference r.items .last .close

/-- The quote entry of a label and a record (R172, R173). -/
def quoteEntry (g : Global) (p : Policy) (label : Text) (r : Option Record) : List CrawlCell :=
  let base := crawlText g.crawlFg g.crawlBg
  let items := (r.map Record.items).getD []
  match quotedLast r with
  | none => base (trimLabel label ++ [chSpace] ++ noQuote ++ quoteGap)
  | some last =>
    base (trimLabel label ++ [chSpace] ++ naturalText items last none false)
      ++ netPart g p items (netChange r) ++ base quoteGap

/-! ## The refill (R171) -/

/-- An entry of the crawl program. -/
def State.progEntry (s : State) (i : Nat) : ProgEntry := Tab.get defaultProg i s.lay.prog

/-- The keyed entry a refill finds, from the cursor upward; `fuel` counts the entries left to
examine (R171). -/
def findKeyed (s : State) : Nat → Nat → Option (Nat × Key)
  | 0, _ => none
  | fuel + 1, i =>
    match (s.progEntry (i % 32)).key with
    | some k => some (i % 32, k)
    | none => findKeyed s fuel (i + 1)

/-- The quote entry of a program entry, as its record stands. -/
def State.quote (s : State) (i : Nat) (k : Key) : List CrawlCell :=
  quoteEntry s.lay.global (s.policy 0) (s.progEntry i).label (Tab.look k.toNat s.dir.records)

/-- A refill: the quote entry of the next keyed entry, if there is one (R171). -/
def refill (s : State) : State :=
  match findKeyed s 32 s.crw.cursor with
  | none => s
  | some (i, k) =>
    s.modCrw fun c => { c with queue := c.queue ++ s.quote i k, cursor := (i + 1) % 32 }

/-- The refill a head's step makes when the queue holds fewer cells than the plane has columns
(R162). -/
def refillIfLow (s : State) : State := if s.crw.queue.length < cols s.straps then refill s else s

/-! ## The crawl step (R160 to R163) -/

/-- A blank crawl cell as it is made now (R158). -/
def State.blank (s : State) : CrawlCell := blankCrawl s.lay.global.crawlFg s.lay.global.crawlBg

/-- The row one cell to the left, with a new cell in the last column (R160). -/
def shiftRow (new : CrawlCell) (row : List CrawlCell) : List CrawlCell := row.drop 1 ++ [new]

/-- The row shifted in state. -/
def pushCell (new : CrawlCell) (s : State) : State :=
  s.modCrw fun c => { c with row := shiftRow new c.row }

/-- A head's take: the queue's head cell, or a blank reported as idle (R162). -/
def headCell (s : State) : State :=
  match s.crw.queue with
  | [] => (pushCell s.blank s).tallyIdle
  | new :: t => pushCell new (s.modCrw fun c => { c with queue := t })

/-- The held cell sent for a step tag (R163). -/
def heldCell (tag : Byte) (h : Option Hold) : Option CrawlCell :=
  match h with
  | none => none
  | some x => if x.tag = tag then some x.cell else none

/-- A link's take from its hand-off hold, which it empties: the cell sent for this step, or a blank
reported as an underrun (R163). -/
def linkCell (s : State) : State :=
  let s1 := s.modCrw fun c => { c with hold := none }
  match heldCell s.stepTag s.crw.hold with
  | some new => pushCell new s1
  | none => (pushCell s.blank s1).countUnderLate

/-- The new cell by crawl role. -/
def newCell (s : State) : State :=
  match role s.straps with
  | .off => s
  | .head => headCell (refillIfLow s)
  | .link _ => linkCell s

/-- What a step asks for: the row's write, and a hand-off unless the station is a mute listener
(R160, R161). -/
def afterStep (s : State) : State :=
  (s.modCpl fun c => { c with crawlReq := true }).modCrw fun c =>
    { c with stepDue := false, handoffDue := !mute s.straps }

/-- CRW's step at the present sweep start (R160). -/
def takeStep (s : State) : State := if s.crw.stepDue then afterStep (newCell s) else s

/-- CRAWL_STEP (R160). -/
def execCrawlStep (s : State) : Result := running takeStep s

end Sys2Proof.Machine
end

