-- ==== Sys2Proof/Machine/Directory.lean ====
section
/-! DEFINITION. The instrument directory, DIR (spec/04_instrument_directory.md), and the mark table's
side of its mark counts (R30). -/

namespace Sys2Proof.Machine

/-! ## Records and references -/

/-- The record of a key. -/
def State.record? (s : State) (k : Key) : Option Record := Tab.look k.toNat s.dir.records

/-- A record in its place. -/
def State.setRecord (r : Record) (s : State) : State :=
  s.modDir fun d => { d with records := Tab.insert r.key.toNat r d.records }

/-- The number of mark table entries naming a key (R30; assumption 18). -/
def markCount (p : Ptb) (k : Key) : Nat := (p.marks.filter (fun e => e.2 = k)).length

/-- The references to a key: bound fields and crawl program entries naming it (R54; assumption 17). -/
def refCount (l : Lay) (k : Key) : Nat :=
  (l.fields.filter (fun e => e.2.key = k)).length + (l.prog.filter (fun e => e.2.key = some k)).length

/-- A record at its creation (R55). -/
def newRecord (k : Key) (marks refs : Nat) : Record :=
  { key := k, state := .void, source := none, alternate := none, lastSeq := none, items := [],
    image := none, deadline := none, marks := marks, refs := refs }

/-- The refresh request of a key removed (R71). -/
def dropRefresh (k : Key) (s : State) : State :=
  s.modDir fun d => { d with refresh := d.refresh.filter (fun e => decide (e.key ≠ k)) }

/-- A record freed (R56). -/
def freeRecord (k : Key) (s : State) : State :=
  (dropRefresh k s).modDir fun d => { d with records := Tab.erase k.toNat d.records }

/-- The record of a key settled with the tables that name it: created, freed, or given its count
(R54 to R56). -/
def settleKey (s : State) (k : Key) : State :=
  let n := refCount s.lay k
  match s.record? k with
  | none => if n = 0 then s else s.setRecord (newRecord k (markCount s.ptb k) n)
  | some r => if n = 0 then freeRecord k s else s.setRecord { r with refs := n }

/-- The keys a layout record releases or binds settled as one change (R54). -/
def settleKeys (keys : List Key) (s : State) : State := keys.foldl settleKey s

/-- The keys the layout tables name. -/
def namedKeys (l : Lay) : NatSet :=
  NatSet.ofList (l.fields.map (fun e => e.2.key.toNat) ++ l.prog.filterMap (fun e => e.2.key.map BitVec.toNat))

/-- The room of the directory (R54). -/
def recordRoom : Nat := 256

/-- The directory would need more records than it has room for (R55). -/
def overFull (l : Lay) : Bool := decide (recordRoom < (namedKeys l).length)

/-! ## Marks (R30, R31) -/

/-- The mark count of a key's record brought to the mark table (R30). -/
def settleMarks (s : State) (k : Key) : State :=
  match s.record? k with
  | none => s
  | some r => s.setRecord { r with marks := markCount s.ptb k }

/-- Station n's mark table entry changed, with the counts of the keys concerned (R30). -/
def setMark (n : Station) (m : Option Key) (s : State) : State :=
  let old := Tab.look n.toNat s.ptb.marks
  let s1 := s.modPtb fun p =>
    { p with
      marks := match m with
        | none => Tab.erase n.toNat p.marks
        | some k => Tab.insert n.toNat k p.marks }
  (old.toList ++ m.toList).foldl settleMarks s1

/-! ## Refresh requests (R69 to R71) -/

/-- The room of the refresh request list (R69). -/
def refreshRoom : Nat := 16

/-- The event that puts a key's record in GAPPED makes a request where R69 allows one. -/
def askRefresh (k : Key) (s : State) : State :=
  match (s.record? k).bind Record.source with
  | none => s
  | some target =>
    if mute s.straps || s.dir.refresh.any (fun e => decide (e.key = k))
        || decide (refreshRoom ≤ s.dir.refresh.length) then s
    else
      s.modDir fun d =>
        { d with
          refresh := d.refresh ++
            [{ key := k, target := target, second := false, state := .waiting, inPass := false }] }

/-- One entry of the pass of R70: what becomes of it, with the state's other changes. -/
def handleRefresh (e : RefreshEntry) (s : State) : Option RefreshEntry × State :=
  let offer (e : RefreshEntry) : Option RefreshEntry × State :=
    if s.txFree then
      (some { e with state := .sent (s.now + 256), inPass := false },
        s.txAdd (refreshParcel s.own e.target e.key))
    else (some { e with inPass := false }, s)
  match e.state with
  | .waiting => offer e
  | .sent due =>
    if reached s.now due then
      if e.second then (none, s.tallyRefreshFail)
      else offer { e with second := true, state := .waiting }
    else (some { e with inPass := false }, s)

/-- An entry of the pass is SENT with its deadline reached. -/
def deadlineReached (now : Sweep) (e : RefreshEntry) : Bool :=
  match e.state with
  | .waiting => false
  | .sent due => reached now due

/-- The pass of R70 over the entries that still wait for their turn, in the list's order. With
`deadlines` clear it stops at the first reached deadline, which REFRESH_DEADLINE takes
(assumption 26). -/
def refreshPass (deadlines : Bool) : List RefreshEntry → State → List RefreshEntry × State
  | [], s => ([], s)
  | e :: t, s =>
    if !e.inPass then
      let (t', s') := refreshPass deadlines t s
      (e :: t', s')
    else if !deadlines && deadlineReached s.now e then (e :: t, s)
    else
      let (e', s1) := handleRefresh e s
      let (t', s2) := refreshPass deadlines t s1
      (e'.toList ++ t', s2)

/-- The pass of R70 over the refresh request list. -/
def runRefreshPass (deadlines : Bool) (s : State) : State :=
  let (l, s') := refreshPass deadlines s.dir.refresh s
  s'.modDir fun d => { d with refresh := l }

/-- The pass of R70 begun at a sweep start: every entry takes part. -/
def beginRefreshPass (s : State) : State :=
  runRefreshPass false
    (s.modDir fun d => { d with refresh := d.refresh.map fun e => { e with inPass := true } })

/-! ## Source switching (R67) -/

/-- Station n is PRESENT; the own number has no entry (R28). -/
def State.isPresent (s : State) (n : Station) : Bool :=
  decide (n ≠ s.own) && decide ((Tab.get resetPeer n.toNat s.ptb.peers).state = .present)

/-- A record whose source has fallen silent, switched (R67). -/
def switchRecord (s : State) (gone : Station) (r : Record) : Record :=
  let base := { r with lastSeq := none, image := none, deadline := none }
  match r.alternate with
  | none => { base with source := none, state := .orphaned }
  | some a =>
    if s.isPresent a then { base with source := some a, alternate := none, state := .gapped }
    else
      { base with
        source := none
        state := .orphaned
        alternate := if a = gone then none else some a }

/-- One record at the silence or kind change event of a station (R67). An alternate that is the
station goes also from a record that has no source (assumption 41). -/
def switchOne (gone : Station) (s : State) (k : Key) : State :=
  match s.record? k with
  | none => s
  | some r =>
    if r.source = some gone then
      let r' := switchRecord s gone r
      let s1 := (dropRefresh k s).setRecord r'
      if r'.state = .gapped then askRefresh k s1 else s1
    else if r.alternate = some gone then s.setRecord { r with alternate := none }
    else s

/-- A key placed by its switch rank, then by key; the order is a free value (assumption 9). -/
def placeByRank (k : Key) : List Key → List Key
  | [] => [k]
  | j :: t => if Config.switchRank k < Config.switchRank j then k :: j :: t else j :: placeByRank k t

/-- The keys of the records in the order one switch takes them. -/
def switchOrder (d : Dir) : List Key := (d.records.map (fun e => e.2.key)).foldr placeByRank []

/-- DIR's action at a silence or kind change event (R67). -/
def switchSources (gone : Station) (s : State) : State :=
  (switchOrder s.dir).foldl (switchOne gone) s

/-! ## The intake's use of the directory (R39, R64) -/

/-- A drop notice for a key (R64, R65). -/
def dropNotice (k : Key) (s : State) : State :=
  match s.record? k with
  | none => s
  | some r =>
    askRefresh k (s.setRecord
      { r with
        state := .gapped
        deadline := none
        image := r.image.map fun i => { i with gapped := true } })

/-- The outcome of the source filter: the record, and whether the tick goes on (R39). -/
def sourceFilter (origin : Station) (r : Record) : Record × Bool :=
  match r.source with
  | none =>
    ({ r with
        source := some origin
        alternate := if r.alternate = some origin then none else r.alternate }, true)
  | some t => if t = origin then (r, true) else ({ r with alternate := some origin }, false)

/-! ## Applying an entry (R57 to R65) -/

/-- The stale deadline an apply leaves (R65). -/
def staleDeadline (now : Sweep) (limit : Nat) (st : RecordState) : Option Sweep :=
  if st = .live ∧ limit ≠ 0 then some (now + BitVec.ofNat 32 limit) else none

/-- The item codes an entry holds. -/
def entryCodes (e : IntakeEntry) : List Nat := e.items.map (fun i => i.1)

/-- An image in progress with an entry's codes in its seen set. -/
def seeCodes (codes : List Nat) (i : Image) : Image :=
  { i with seen := codes.foldl (fun s c => NatSet.insert c s) i.seen }

/-- What an apply makes of a record: the record, its touched codes, and whether the record was put
in GAPPED (R69) and whether a sequence gap is counted (R73). -/
structure Applied where
  record : Record
  touched : List Nat
  asked : Bool
  gap : Bool

/-- The end of an image, where the entry carries image_end and one is in progress (R63). -/
def endImage (e : IntakeEntry) (a : Applied) : Applied :=
  match a.record.image with
  | none => a
  | some i =>
    if e.imageEnd then
      let outside := itemCodes.filter (fun c => !i.seen.contains c)
      { a with
        record :=
          { a.record with
            items := outside.foldl (fun t c => Tab.erase c t) a.record.items
            image := none
            state := if i.gapped then a.record.state else .live }
        touched := a.touched ++ outside }
    else a

/-- A record with an entry's items and last_seq, its codes in the seen set (R58, R61, R62). -/
def takeItems (e : IntakeEntry) (r : Record) : Record :=
  { r with
    items := storeItems e.items r.items
    lastSeq := some e.lastSeq
    image := r.image.map (seeCodes (entryCodes e)) }

/-- An entry with image_start applied (R62). -/
def applyStart (e : IntakeEntry) (r : Record) : Applied :=
  { record := takeItems e
      { r with
        image := some { seen := [], gapped := e.gap }
        state := if e.gap then .gapped else r.state }
    touched := entryCodes e
    asked := e.gap
    gap := e.gap }

/-- A first-contact entry applied (R60). -/
def applyFirst (e : IntakeEntry) (r : Record) : Applied :=
  { record := takeItems e { r with state := .gapped }
    touched := entryCodes e
    asked := true
    gap := false }

/-- An in-sequence entry applied (R61). -/
def applyInSeq (e : IntakeEntry) (r : Record) : Applied :=
  { record := takeItems e { r with state := if r.state = .stale then .live else r.state }
    touched := entryCodes e
    asked := false
    gap := false }

/-- A sequence-gap entry applied (R61). -/
def applyGap (e : IntakeEntry) (r : Record) : Applied :=
  { record := takeItems e
      { r with state := .gapped, image := r.image.map fun i => { i with gapped := true } }
    touched := entryCodes e
    asked := true
    gap := true }

/-- The sequence classes of an entry against last_seq (R61). -/
inductive SeqClass where
  | duplicate
  | inSequence
  | gap
deriving DecidableEq, Repr

/-- The class of a sequence difference d (R43, R61). -/
def seqClass (d : Nat) : SeqClass :=
  if d = 0 ∨ 32768 ≤ d then .duplicate else if d = 1 then .inSequence else .gap

/-- The class of an entry against a record's last_seq: 1 with gap set is a sequence gap (R61). -/
def entryClass (e : IntakeEntry) (last : Seq) : SeqClass :=
  match seqClass (e.firstSeq - last).toNat with
  | .duplicate => .duplicate
  | .inSequence => if e.gap then .gap else .inSequence
  | .gap => .gap

/-- The apply of an entry to the record of its key, from its source; none for a duplicate (R60 to
R63). -/
def applyEntry (e : IntakeEntry) (r : Record) : Option Applied :=
  if e.imageStart then some (endImage e (applyStart e r))
  else
    match r.lastSeq with
    | none => some (endImage e (applyFirst e r))
    | some last =>
      match entryClass e last with
      | .duplicate => none
      | .inSequence => some (endImage e (applyInSeq e r))
      | .gap => some (endImage e (applyGap e r))

/-- A field follows from touched codes (R72). -/
def follows (touched : List Nat) : Selector → Bool
  | .stored .bid => touched.contains 0 || touched.contains 11
  | .stored .ask => touched.contains 1 || touched.contains 11
  | .stored .bsize => touched.contains 3 || touched.contains 11
  | .stored .asize => touched.contains 4 || touched.contains 11
  | .stored .last => touched.contains 2
  | .stored .volume => touched.contains 5
  | .stored .opening => touched.contains 6
  | .stored .high => touched.contains 7
  | .stored .low => touched.contains 8
  | .stored .close => touched.contains 9
  | .stored .time => touched.contains 10
  | .stored .condition => touched.contains 11
  | .netchg => touched.contains 2 || touched.contains 9
  | .pctchg => touched.contains 2 || touched.contains 9
  | .spread => touched.contains 0 || touched.contains 1

/-- The fields enqueued after an apply, in ascending field index (R72). -/
def fieldsToPaint (l : Lay) (k : Key) (touched : List Nat) : List Nat :=
  (l.fields.filter (fun e => decide (e.2.key = k) && follows touched e.2.selector)).map (fun e => e.1)

/-- The changes an apply makes beside the record: the deadline, the count, the refresh request and
the paints (R65, R69, R71 to R73). -/
def commitApply (k : Key) (a : Applied) (s : State) : State :=
  let r := { a.record with deadline := staleDeadline s.now s.lay.global.staleLimit a.record.state }
  let s1 := s.setRecord r
  let s2 := if a.gap then s1.countGap else s1
  let s3 := if a.asked then askRefresh k s2 else s2
  let s4 := if r.state = .gapped then s3 else dropRefresh k s3
  s4.enqueue .ordinary (fieldsToPaint s.lay k a.touched)

/-- DIR takes an entry: applied or discarded (R51, R59 to R63, R72). -/
def takeEntry (e : IntakeEntry) (s : State) : State :=
  match s.record? e.key with
  | none => s
  | some r =>
    if r.source = some e.origin then
      match applyEntry e r with
      | none => s.tallyDuplicate
      | some a => commitApply e.key a s
    else s

/-- The mark below which DIR takes entries (spec/03, section 3.5). -/
def takeMark : Nat := 64

/-- INTAKE_TAKE (R49): the head entry is taken while the paint queue holds fewer than 64 fields. -/
def takeHead (s : State) : State :=
  match s.inq with
  | [] => s
  | e :: t =>
    if s.pnt.queue.length < takeMark then takeEntry e (s.modInq fun _ => t) else s

def execIntakeTake (s : State) : Result := running takeHead s

/-! ## Sweep-start actions -/

/-- A LIVE record whose stale deadline is reached goes STALE (R66). -/
def expireStale (now : Sweep) (r : Record) : Record :=
  if r.state = .live ∧ r.deadline.any (reached now) then { r with state := .stale, deadline := none }
  else r

/-- STALE_EXPIRY (R66). -/
def execStaleExpiry (s : State) : Result :=
  running (fun s => s.modDir fun d =>
    { d with records := Tab.mapValues (fun _ r => expireStale s.now r) d.records }) s

/-- REFRESH_DEADLINE (R70): the rest of the pass of the present sweep start. -/
def execRefreshDeadline (s : State) : Result := running (runRefreshPass true) s

end Sys2Proof.Machine
end

