-- ==== Sys2Proof/Machine/Status.lean ====
section
/-! DEFINITION. The status unit, STS: the lap report, the STATUS parcel, the status row and COUNTER
CLEAR (spec/11_straps_status_and_counters.md). -/

namespace Sys2Proof.Machine

/-! ## The status row text (R205) -/

/-- A text of given characters. -/
def chars (l : List Char) : Text := l.map fun c => BitVec.ofNat 8 c.toNat

/-- An item of the row, its cells marked or not as an alarm's (R206). -/
def rowItem (alarm : Bool) (t : Text) : List StatusChar := t.map fun c => { code := c, alarm := alarm }

/-- An item that is present under a condition. -/
def itemIf (present alarm : Bool) (t : Text) : List (List StatusChar) :=
  if present then [rowItem alarm t] else []

/-- Station numbers as two digits each, separated by ','. -/
def stationList : List Nat → Text
  | [] => []
  | [n] => fixedDigits 2 n
  | n :: m :: t => fixedDigits 2 n ++ chComma :: stationList (m :: t)

/-- A tally token of the row. -/
def tallyItem (token : List Char) (n : BitVec 16) : List (List StatusChar) :=
  itemIf (decide (n ≠ 0)) false (chars token ++ chColon :: decimal n.toNat)

/-- The items of the status row, in order (R205). -/
def statusItems (s : State) : List (List StatusChar) :=
  let r := s.sts.report
  let a := routed Routing.toRow s.lay.global r.alarms
  itemIf true false (chars ['S'] ++ fixedDigits 2 s.own.toNat)
    ++ itemIf a.sync true (chars ['S', 'Y', 'N', 'C'])
    ++ itemIf a.clash true (chars ['C', 'L', 'A', 'S', 'H'])
    ++ itemIf a.silent true (chars ['S', 'I', 'L', ':'] ++ stationList r.silent)
    ++ itemIf a.orphan true (chars ['O', 'R', 'P', 'H', ':'] ++ decimal r.orphaned.toNat)
    ++ itemIf (decide (r.stale ≠ 0)) false
        (chars ['S', 'T', 'A', 'L', 'E', ':'] ++ decimal r.stale.toNat)
    ++ itemIf (decide (r.gapped ≠ 0)) false (chars ['G', 'A', 'P', ':'] ++ decimal r.gapped.toNat)
    ++ itemIf a.drop true (chars ['D', 'R', 'O', 'P', ':'] ++ decimal r.counters.dropped.toNat)
    ++ itemIf a.underrun true (chars ['U', 'N', 'D', ':'] ++ decimal r.counters.underLate.toNat)
    ++ itemIf a.foreign true (chars ['F', 'G', 'N'])
    ++ tallyItem ['D', 'U', 'P'] r.tallies.duplicates
    ++ tallyItem ['U', 'N', 'B'] r.tallies.unbound
    ++ tallyItem ['M', 'A', 'L'] r.tallies.malformed
    ++ tallyItem ['S', 'K', 'I', 'P'] r.tallies.skips
    ++ tallyItem ['R', 'F', 'A', 'I', 'L'] r.tallies.refreshFail
    ++ tallyItem ['I', 'D', 'L', 'E'] r.tallies.idle
    ++ tallyItem ['T', 'X', 'D', 'R', 'O', 'P'] r.tallies.textDrops
    ++ itemIf s.lay.fields.isEmpty false (chars ['N', 'O', ' ', 'L', 'A', 'Y', 'O', 'U', 'T'])

/-- A plain space of the row. -/
def rowSpace : StatusChar := { code := chSpace, alarm := false }

/-- Items followed each by one space but the last. -/
def joinItems : List (List StatusChar) → List StatusChar
  | [] => []
  | [i] => i
  | i :: j :: t => i ++ rowSpace :: joinItems (j :: t)

/-- A text cut at a width and padded to it. -/
def fitRow (w : Nat) (t : List StatusChar) : List StatusChar :=
  (t ++ List.replicate (w - t.length) rowSpace).take w

/-- The status row text (R205). -/
def statusText (s : State) : List StatusChar := fitRow (cols s.straps) (joinItems (statusItems s))

/-- The cell of a character of the status row (R206). -/
def statusCell (c : StatusChar) : Cell :=
  { glyph := c.code.setWidth 9, fg := if c.alarm then 9 else 15, bg := 1, blink := false,
    underline := false, field := none }

/-- A rebuild of the status row text, which raises a write request; none under SROW 0 (R205). -/
def rebuildRow (s : State) : State :=
  if s.straps.srow then
    (s.modSts fun t => { t with text := statusText s }).modCpl fun c => { c with statusReq := true }
  else s

/-- The rebuild that a COUNTER CLEAR or a GLOBAL record asks for. Until the first lap start after
RESETn release there is no text, and none is built (R199, R205; assumption 40). -/
def refreshRow (s : State) : State := if s.sts.text.isEmpty then s else rebuildRow s

/-! ## The lap report (R199) -/

/-- The lap report of the lap that ends. -/
def lapReport (s : State) : LapReport :=
  { counters := snapshot s.sts.counters, tallies := s.sts.tallies, alarms := lapAlarms s
    silent := silentSet s.ptb, orphaned := hold8 (stateCount s.dir .orphaned)
    stale := hold8 (stateCount s.dir .stale), gapped := hold8 (stateCount s.dir .gapped) }

/-- Steps 1 to 3 of a lap start: the report formed, the counts restarted, the latches cleared
(R199). -/
def formReport (s : State) : State :=
  s.modSts fun t =>
    { t with
      counters := zeroCounters 32
      tallies := zeroTallies
      report := lapReport s
      clashLatch := false
      foreignLatch := false
      syncSeen := false
      lapDue := false }

/-- The STATUS parcel of the lap report as it stands (R202). -/
def statusOf (s : State) : Parcel :=
  statusParcel s.own s.sts.report (routed Routing.toParcel s.lay.global s.sts.report.alarms)
    s.sts.lastRefusal

/-- The STATUS offered to the open-slot transmit queue; a mute listener offers none and a full queue
refuses it (R15, R202). -/
def offerStatus (s : State) : State :=
  if !mute s.straps && s.txFree then s.txAdd (statusOf s) else s

/-- STS's lap start (R199). -/
def takeLapStart (s : State) : State :=
  if s.sts.lapDue then rebuildRow (offerStatus (formReport s)) else s

/-- LAP_START (R199). -/
def execLapStart (s : State) : Result := running takeLapStart s

/-! ## COUNTER CLEAR (R204) -/

/-- The lap report after COUNTER CLEAR. -/
def clearedReport (r : LapReport) : LapReport :=
  { r with
    counters := zeroCounters 16
    tallies := zeroTallies
    alarms := { r.alarms with clash := false, drop := false, underrun := false, foreign := false } }

/-- STS takes a COUNTER CLEAR (R199, R204). -/
def clearCounters (s : State) : State :=
  refreshRow (s.modSts fun t =>
    { t with
      counters := zeroCounters 32
      tallies := zeroTallies
      report := clearedReport t.report
      clashLatch := false
      foreignLatch := false
      syncSeen := false })

/-- COUNTER_CLEAR (R204). -/
def execCounterClear (rx : Rx) (s : State) : Result := running (commandParcel rx 9 clearCounters) s

/-- COMMAND_BAD_CODE (R21): refused with RANGE after the origin check. -/
def execCommandBadCode (rx : Rx) (code : BadCommandCode) (s : State) : Result :=
  running (commandParcel rx (badCommandCode code)
    (State.refuse 2 (badCommandCode code) .range rx.origin)) s

end Sys2Proof.Machine
end

