-- ==== Sys2Proof/Machine/Display.lean ====
section
/-! DEFINITION. The plane port, the frames, the colour resolution and the video output, CPL
(spec/10_cell_plane_and_display.md). -/

namespace Sys2Proof.Machine

/-! ## Colour resolution (R184 to R188) -/

/-- A pair of palette indices, fg and bg. -/
abbrev Pair := Colour × Colour

/-- A record state whose colour overrides tick colours, with its fg (R186). -/
def stateFg (g : Global) (st : RecordState) : Option Colour :=
  match st with
  | .void => none
  | .live => none
  | .gapped => some g.gapFg
  | .stale => some g.staleFg
  | .orphaned => some g.staleFg

/-- The pair of a flash (R186). -/
def flashPair (p : Policy) (f : Flash) : Option Pair :=
  match f with
  | .none => none
  | .up => some (p.upFg, p.upBg)
  | .down => some (p.downFg, p.downBg)
  | .touch => some (p.touchFg, p.touchBg)

/-- The fg of a stick (R186). -/
def stickFg (p : Policy) (k : Stick) : Option Colour :=
  match k with
  | .none => none
  | .up => some p.upStick
  | .down => some p.downStick

/-- The pair of a field's tick colours (R186). -/
def tickPair (f : Field) (p : Policy) (ps : PaintState) : Pair :=
  match flashPair p ps.flash with
  | some c => c
  | none => ((stickFg p ps.stick).getD f.fg, f.bg)

/-- Text kinds under which a field stays in its base colours (R186). -/
def TextKind.isReplaced : TextKind → Bool
  | .none => false
  | .value => false
  | .condition => false
  | .substituted => true
  | .overridden => true

/-- The pair of a field cell after R186. -/
def chosenPair (g : Global) (f : Field) (p : Policy) (ps : PaintState) (st : RecordState) : Pair :=
  if ps.textKind.isReplaced then (f.fg, f.bg)
  else
    match stateFg g st with
    | some c => (c, f.bg)
    | none => tickPair f p ps

/-- The mark swap (R187). -/
def markSwap (marked : Bool) (c : Pair) : Pair := if marked then (c.2, c.1) else c

/-- The fg hidden in blink phase OFF (R184, R188). -/
def hideFg (hidden : Bool) (c : Pair) : Pair := if hidden then (c.2, c.2) else c

/-- A field cell blinks (R188). -/
def fieldBlinks (cellBlink : Bool) (p : Policy) (ps : PaintState) (st : RecordState) : Bool :=
  cellBlink || (p.blinkFlash && decide (ps.flash ≠ .none) && decide (st = .live))

/-- The resolved pair of a field cell (R186 to R188). -/
def fieldPair (g : Global) (f : Field) (p : Policy) (ps : PaintState) (st : RecordState) (marks : Nat)
    (blinkOn cellBlink : Bool) : Pair :=
  hideFg (!blinkOn && fieldBlinks cellBlink p ps st)
    (markSwap (f.localMark || decide (0 < marks)) (chosenPair g f p ps st))

/-- The state of a field's record. -/
def recordState (r : Option Record) : RecordState :=
  match r with
  | none => .void
  | some r => r.state

/-- The mark count of a field's record. -/
def recordMarks (r : Option Record) : Nat :=
  match r with
  | none => 0
  | some r => r.marks

/-- The bound field of a cell, if its index holds one (R185). -/
def cellField (l : Lay) (c : Cell) : Option (Nat × Field) :=
  match c.field with
  | none => none
  | some i => (Tab.look i l.fields).map fun f => (i, f)

/-- The resolved pair of a cell, as a field cell or a non-field cell (R184, R185). -/
def cellPair (s : State) (c : Cell) : Pair :=
  match cellField s.lay c with
  | none => hideFg (!s.cpl.blinkOn && c.blink) (c.fg, c.bg)
  | some (i, f) =>
    let r := Tab.look f.key.toNat s.dir.records
    fieldPair s.lay.global f (s.policy f.policy) (s.paintState i) (recordState r) (recordMarks r)
      s.cpl.blinkOn c.blink

/-- A palette entry as the palette holds it. -/
def State.rgb (s : State) (c : Colour) : Rgb := Tab.get (defaultPalette c.toNat) c.toNat s.lay.palette

/-- A cell as it is shown (R190). -/
def showCell (s : State) (c : Cell) : Shown :=
  let p := cellPair s c
  { glyph := c.glyph, fg := p.1, bg := p.2, fgRgb := s.rgb p.1, bgRgb := s.rgb p.2,
    underline := c.underline }

/-- A plane row as a fetch shows it (R183). -/
def showRow (s : State) (r : Nat) : List Shown :=
  (List.range (cols s.straps)).map fun c => showCell s (s.cell r c)

/-! ## Frames and row fetches (R183, R189) -/

/-- The blink phase at a lap index: period 16 × 2^c sweeps, ON for duty sixteenths (R189). -/
def blinkPhase (lap code duty : Nat) : Bool := decide (lap % (16 * 2 ^ code) < 2 ^ code * duty)

/-- CPL's frame start (R183, R189). -/
def startFrame (s : State) : State :=
  s.modCpl fun c =>
    { c with
      blinkOn := blinkPhase s.lnk.lap.toNat s.lay.global.blinkCode s.lay.global.blinkDuty
      nextRow := 0
      fetchReq := none }

/-- FRAME_START (R189). -/
def execFrameStart (s : State) : Result := running startFrame s

/-- A row fetched and resolved: it serves the row's scan lines from now on (R183). -/
def fetchRow (r : Nat) (s : State) : State :=
  s.modCpl fun c =>
    { c with picture := Tab.insert r (showRow s r) c.picture, nextRow := r + 1, fetchReq := none }

/-- A granted write is on a row (R181). -/
def Cpl.writing (c : Cpl) (r : Nat) : Bool := c.granted.any (fun w => decide (w.row = r))

/-- The display's fetch of the row due next, granted at once unless a write on that row is in
progress (R181, R183). -/
def requestRow (s : State) : State :=
  if s.cpl.nextRow < rows s.straps then
    if s.cpl.writing s.cpl.nextRow then s.modCpl fun c => { c with fetchReq := some c.nextRow }
    else fetchRow s.cpl.nextRow s
  else s

/-- ROW_FETCH (R183). -/
def execRowFetch (s : State) : Result := running requestRow s

/-! ## Grants (R179, R180) -/

/-- The plane cell of a crawl cell (R161). -/
def CrawlCell.plane (c : CrawlCell) : Cell :=
  { glyph := c.glyph, fg := c.fg, bg := c.bg, blink := c.blink, underline := false, field := none }

/-- The painter's burst that waits for its grant. -/
def waitingBurst (p : Pnt) : Option PaintBurst := p.burst.filter (fun b => decide (b.stage = .waiting))

/-- The crawl row write at its grant (R161). -/
def grantCrawl (s : State) : State :=
  match crawlRow s.straps with
  | none => s.modCpl fun c => { c with crawlReq := false }
  | some r =>
    s.modCpl fun c =>
      { c with
        crawlReq := false
        granted := some { row := r, column := 0, cells := s.crw.row.map CrawlCell.plane, by_ := .crawl } }

/-- A painter burst at its grant; the turn then names COMPOSE (R180). -/
def grantPainter (b : PaintBurst) (s : State) : State :=
  (s.modPnt fun p => { p with burst := some { b with stage := .granted } }).modCpl fun c =>
    { c with
      turn := .compose
      granted := some { row := b.row, column := b.column, cells := b.cells, by_ := .painter } }

/-- The head of the compose burst list at its grant; the turn then names PAINTER (R180). -/
def grantCompose (b : Burst) (t : List Burst) (s : State) : State :=
  s.modCpl fun c =>
    { c with
      turn := .painter
      bursts := t
      granted := some { row := b.row, column := b.column, cells := b.cells, by_ := .compose b.owner b.after } }

/-- The status row write at its grant (R179, R206). -/
def grantStatus (s : State) : State :=
  match statusRow s.straps with
  | none => s.modCpl fun c => { c with statusReq := false }
  | some r =>
    s.modCpl fun c =>
      { c with
        statusReq := false
        granted := some { row := r, column := 0, cells := s.sts.text.map statusCell, by_ := .status } }

/-- The painter burst or the compose burst, by turns; the status row write when neither waits
(R180). -/
def grantByTurn (s : State) : State :=
  match waitingBurst s.pnt, s.cpl.bursts with
  | some b, [] => grantPainter b s
  | none, c :: t => grantCompose c t s
  | some b, c :: t => if s.cpl.turn = .painter then grantPainter b s else grantCompose c t s
  | none, [] => if s.cpl.statusReq then grantStatus s else s

/-- The arbiter's grant when the port is free (R180). -/
def grantNext (s : State) : State :=
  match s.cpl.granted, s.cpl.fetchReq with
  | some _, _ => s
  | none, some r => fetchRow r s
  | none, none => if s.cpl.crawlReq then grantCrawl s else grantByTurn s

/-- PORT_GRANT (R180). -/
def execPortGrant (s : State) : Result := running grantNext s

/-! ## Completion (R181) -/

/-- The requester told that its transfer is written. -/
def tellWritten (b : Requester) (s : State) : State :=
  match b with
  | .crawl => s
  | .status => s
  | .painter => s.modPnt fun p => { p with burst := p.burst.map fun b => { b with stage := .written } }
  | .compose _ a => runAfter a s

/-- The granted write's last cell written (R181). -/
def completeWrite (s : State) : State :=
  match s.cpl.granted with
  | none => s
  | some w =>
    tellWritten w.by_
      (s.modCpl fun c =>
        { c with plane := writeCells w.row w.column w.cells c.plane, granted := none })

/-- TRANSFER_COMPLETE (R181). -/
def execTransferComplete (s : State) : Result := running completeWrite s

/-! ## Pixels and video (R190 to R192) -/

/-- A line or block graphic (R191). -/
def isGraphic (g : Glyph) : Bool := decide (0x100 ≤ g.toNat) && decide (g.toNat ≤ 0x1BF)

/-- A glyph's scan line 0..15, pixel 0 in the most significant bit: the space, the full block and
scan line 15 as R191 gives them, the rest a free value (assumption 11). -/
def glyphRow (g : Glyph) (line : Nat) : Byte :=
  if g = 0x20 then 0
  else if g.toNat = 0x180 + Config.fullBlock.toNat then BitVec.allOnes 8
  else if line = 15 ∧ !isGraphic g then 0
  else Config.glyphPattern g line

/-- A pixel of a shown cell is drawn in the fg colour (R190). -/
def pixelSet (c : Shown) (line pixel : Nat) : Bool :=
  (c.underline && decide (line = 15)) || (glyphRow c.glyph line).getMsbD pixel

/-- The colour of a pixel of a shown cell (R190). -/
def cellPixel (c : Shown) (line pixel : Nat) : Rgb := if pixelSet c line pixel then c.fgRgb else c.bgRgb

/-- Black. -/
def black : Rgb := ⟨0, 0, 0⟩

/-- A line and pixel of the frame lie in the active picture (R192). -/
def active (v : VideoMode) (line pixel : Nat) : Bool :=
  decide (line < v.activeLines) && decide (pixel < v.activePixels)

/-- The level of VR, VG and VB at a line and pixel of the frame (R190, R192; assumptions 19 and 32). -/
def videoOut (s : State) (line pixel : Nat) : Rgb :=
  if s.resetHeld || !active (videoMode s.straps) line pixel then black
  else
    match (Tab.get [] (line / 16) s.cpl.picture)[pixel / 8]? with
    | none => black
    | some c => cellPixel c (line % 16) (pixel % 8)

/-- HSYNC is asserted (low) at a pixel of a line (R192). -/
def hsync (s : State) (pixel : Nat) : Bool :=
  let v := videoMode s.straps
  !s.resetHeld && decide (v.hsyncStart ≤ pixel) && decide (pixel < v.hsyncStart + v.hsyncWidth)

/-- VSYNC is asserted (low) at a line of the frame (R192). -/
def vsync (s : State) (line : Nat) : Bool :=
  let v := videoMode s.straps
  !s.resetHeld && decide (v.vsyncStart ≤ line) && decide (line < v.vsyncStart + v.vsyncWidth)

end Sys2Proof.Machine
end

