-- ==== Sys2Proof/Machine/Intake.lean ====
section
/-! DEFINITION. The tick intake, INQ (spec/03_tick_intake.md). -/

namespace Sys2Proof.Machine

/-- The IMAGE_START flag of a TICK. -/
def tickStart (b : TickBody) : Bool := b.sub.getLsbD 0

/-- The IMAGE_END flag of a TICK. -/
def tickEnd (b : TickBody) : Bool := b.sub.getLsbD 1

/-- One item entry written over the items held; codes 12..15 are ignored (R37, R44). -/
def writeItem (items : Tab Received) (e : TickItem) : Tab Received :=
  match Item.ofCode e.code.toNat with
  | none => items
  | some _ => Tab.insert e.code.toNat { value := e.value, scale := e.scale } items

/-- The item entries of a TICK that are read: the count is taken as 4 when above 4 (R22, R37). -/
def tickItems (b : TickBody) : List TickItem := b.items.take (min b.count.toNat 4)

/-- The items of a TICK written over items held, later entries of one code standing (R37, R44). -/
def writeItems (b : TickBody) (items : Tab Received) : Tab Received := (tickItems b).foldl writeItem items

/-- A new entry of a TICK (R47). -/
def newEntry (origin : Station) (b : TickBody) : IntakeEntry :=
  { key := b.key, origin := origin, firstSeq := b.seq, lastSeq := b.seq, items := writeItems b [],
    imageStart := tickStart b, imageEnd := tickEnd b, gap := false, isOpen := !(tickEnd b) }

/-- IMAGE_START's effects on an entry (R45). -/
def startImage (b : TickBody) (e : IntakeEntry) : IntakeEntry :=
  if tickStart b then { e with items := [], gap := false, imageStart := true, firstSeq := b.seq } else e

/-- IMAGE_END's effects on an entry (R46). -/
def finishImage (b : TickBody) (e : IntakeEntry) : IntakeEntry :=
  if tickEnd b then { e with imageEnd := true, isOpen := false } else e

/-- An entry with a tick's items written (R44). -/
def mergeItems (b : TickBody) (e : IntakeEntry) : IntakeEntry := { e with items := writeItems b e.items }

/-- A tick merged into an open entry; none for a duplicate (R43 to R46). -/
def mergeTick (b : TickBody) (e : IntakeEntry) : Option IntakeEntry :=
  match seqClass (b.seq - e.lastSeq).toNat with
  | .duplicate => none
  | .inSequence => some (finishImage b (mergeItems b (startImage b { e with lastSeq := b.seq })))
  | .gap =>
    some (finishImage b (mergeItems b (startImage b { e with lastSeq := b.seq, gap := true })))

/-- The open entry of a key (R41). -/
def openEntry (k : Key) (q : List IntakeEntry) : Option IntakeEntry :=
  q.find? (fun e => e.isOpen && decide (e.key = k))

/-- The open entry of a key replaced. -/
def replaceOpen (k : Key) (f : IntakeEntry → IntakeEntry) (q : List IntakeEntry) : List IntakeEntry :=
  q.map (fun e => if e.isOpen && decide (e.key = k) then f e else e)

/-- The room of the intake queue (R41). -/
def intakeRoom : Nat := 64

/-- A tick that needs a new entry: placed at the tail, or dropped (R47, R48). -/
def placeTick (origin : Station) (b : TickBody) (s : State) : State :=
  if s.inq.length < intakeRoom then (s.modInq fun q => q ++ [newEntry origin b]).countAccepted
  else dropNotice b.key s.countDropped

/-- A tick that has passed the source filter (R42, R43). -/
def routeTick (origin : Station) (b : TickBody) (s : State) : State :=
  match openEntry b.key s.inq with
  | none => placeTick origin b s
  | some e =>
    if e.origin = origin then
      match mergeTick b e with
      | none => s.tallyDuplicate
      | some e' => ((s.modInq (replaceOpen b.key fun _ => e')).countAccepted).countConflated
    else placeTick origin b (s.modInq (replaceOpen b.key fun e => { e with isOpen := false }))

/-- The arrival of a TICK at INQ (R37 to R39). -/
def takeTick (origin : Station) (b : TickBody) (s : State) : State :=
  match s.record? b.key with
  | none => s.tallyUnbound
  | some r =>
    let s1 := s.setRecord (sourceFilter origin r).1
    if (sourceFilter origin r).2 then routeTick origin b s1 else s1

/-- TICK (R37). -/
def execTick (rx : Rx) (b : TickBody) (s : State) : Result :=
  running (receive rx false (takeTick rx.origin b)) s

end Sys2Proof.Machine
end

