-- ==== Sys2Proof/Machine/Operands.lean ====
section
/-! DEFINITION. How the operands of layout records and commands are read: ranges, clamps and
refusals (spec/06_layout_records.md, R95 to R97, R101, R104, R106 to R111). A reading of `none` is
a refusal with RANGE. -/

namespace Sys2Proof.Machine

/-- An index byte below a bound. -/
def readBelow (bound : Nat) (b : Byte) : Option Nat := if b.toNat < bound then some b.toNat else none

/-- A window operand 0..7. -/
def readWindow (b : Byte) : Option Nat := readBelow 8 b

/-- A page operand 0..31. -/
def readPage (b : Byte) : Option Nat := readBelow 32 b

/-- A page operand 0..31, or 255 for none. -/
def readPageOrNone (b : Byte) : Option (Option Nat) :=
  if b.toNat < 32 then some (some b.toNat) else if b = 255 then some none else none

/-- A width clamped to a bound and to the plane's last column (R95). -/
def clampRun (bound columns column w : Nat) : Nat := min (min w bound) (columns - column)

/-- A FIELD entry's format and parameter (R97). -/
def readFormat (kind : BitVec 3) (param : Nibble) : Option Format :=
  match kind.toNat with
  | 0 => some (.dec (if param = 15 then none else some (min param.toNat 7)))
  | 1 => some (.frac (max 1 (min param.toNat 8)))
  | 2 => some (.bond param.toNat)
  | 3 => some (.timeHms param.toNat)
  | 4 => some (.timeHm param.toNat)
  | 5 => some (.cond param.toNat)
  | _ => none

/-- A FIELD entry's substitution (R97). -/
def readSubst (c : BitVec 2) : Option Subst :=
  if c = 0 then some .live else if c = 1 then some .dash else if c = 2 then some .blank else none

/-- What a FIELD entry asks for. -/
inductive EntryRead where
  | delete
  | bind (f : Field)
deriving DecidableEq, Repr

/-- The key a reading binds, if any. -/
def EntryRead.key? : EntryRead → Option Key
  | .delete => none
  | .bind f => some f.key

/-- The field a reading binds, if any. -/
def EntryRead.field? : EntryRead → Option Field
  | .delete => none
  | .bind f => some f

/-- A FIELD entry that binds, read on a plane of a number of columns (R97). -/
def readField (columns : Nat) (e : FieldEntry) : Option Field :=
  if columns ≤ e.column.toNat then none
  else
    match Selector.ofCode e.item.toNat, readFormat e.format e.param, readSubst e.subst with
    | some sel, some fmt, some sub =>
      some
        { page := e.page.toNat, row := e.row.toNat, column := e.column.toNat
          width := clampRun 40 columns e.column.toNat e.width.toNat
          key := e.key, selector := sel, format := fmt, right := e.justifyRight, plus := e.plus
          grouping := e.grouping, policy := e.policy.toNat, throttle := e.throttle.toNat
          subst := sub, fg := e.fg, bg := e.bg, blink := e.blink, localMark := e.localMark }
    | _, _, _ => none

/-- A FIELD entry read (R97); a width of 0 deletes and the other fields are not read. -/
def readEntry (columns : Nat) (e : FieldEntry) : Option EntryRead :=
  if e.width = 0 then some .delete else (readField columns e).map .bind

/-- The entries a FIELD record reads: one or two, by its entry count (R22, R96). -/
def readEntries (columns : Nat) (r : FieldRecord) : Option (List EntryRead) :=
  if r.count = 1 then (readEntry columns r.first).map fun a => [a]
  else if r.count = 2 then
    (readEntry columns r.first).bind fun a => (readEntry columns r.second).map fun b => [a, b]
  else none

/-- Two bound fields of one page share a cell (R97). -/
def sharesCell (a b : Field) : Bool :=
  decide (a.page = b.page) && decide (a.row = b.row)
    && decide (a.column < b.column + b.width) && decide (b.column < a.column + a.width)

/-- A LABEL record's run read (R101): the index and the run, or none of it for a deletion. -/
def readLabel (columns : Nat) (r : LabelRecord) : Option (Nat × Option LabelRun) :=
  if 255 < r.run.toNat then none
  else if r.length = 0 then some (r.run.toNat, none)
  else if 1 < r.charset.toNat ∨ columns ≤ r.column.toNat then none
  else
    some (r.run.toNat, some
      { page := r.page.toNat, row := r.row.toNat, column := r.column.toNat
        glyphs := (r.chars.take (clampRun 20 columns r.column.toNat r.length.toNat)).map
          fun c => BitVec.ofNat 1 r.charset.toNat ++ c
        fg := r.fg, bg := r.bg, blink := r.blink })

/-- A policy mode byte (R106). -/
def readMode (b : Byte) : Option PolicyMode :=
  if b = 0 then some .none else if b = 1 then some .flash else if b = 2 then some .sticky
  else if b = 3 then some .flashSticky else if b = 4 then some .sign else none

/-- A POLICY record read (R106): a hold above 1023 is taken as 1023. -/
def readPolicy (r : PolicyRecord) : Option (Nat × Policy) :=
  match readWindow r.policy, readMode r.mode with
  | some i, some m =>
    some (i,
      { mode := m, hold := min r.hold.toNat 1023, upFg := r.upFg, upBg := r.upBg
        downFg := r.downFg, downBg := r.downBg, upStick := r.upStick, downStick := r.downStick
        touch := r.touch, touchFg := r.touchFg, touchBg := r.touchBg, blinkFlash := r.blinkFlash })
  | _, _ => none

/-- A CAROUSEL record read (R109): the place of the step and the step; a dwell of 0 is taken as 1. -/
def readStep (r : CarouselRecord) : Option (Nat × Step) :=
  match readWindow r.window, readBelow 16 r.step, readPageOrNone r.page with
  | some w, some i, some p => some (16 * w + i, { page := p, dwell := max 1 r.dwell.toNat })
  | _, _, _ => none

/-- A CRAWLPROG record read (R110): its label is eight codes. -/
def readProg (r : CrawlProgRecord) : Option (Nat × ProgEntry) :=
  (readBelow 32 r.entry).map fun i =>
    (i, { key := if r.keyPresent then some r.key else none, label := r.chars.take 8 })

/-- The largest power of two within 1..64 that is at most a value; 0 is taken as 1 (R95). -/
def clampInterval (v : Nat) : Nat :=
  if 64 ≤ v then 64 else if 32 ≤ v then 32 else if 16 ≤ v then 16 else if 8 ≤ v then 8
  else if 4 ≤ v then 4 else if 2 ≤ v then 2 else 1

/-- A GLOBAL record read, every field clamped (R95, R111). -/
def readGlobal (r : GlobalRecord) : Global :=
  { staleLimit := r.staleLimit.toNat, staleFg := r.staleFg, gapFg := r.gapFg
    interval := clampInterval r.interval.toNat, crawlFg := r.crawlFg, crawlBg := r.crawlBg
    blinkCode := min r.blinkCode.toNat 6, blinkDuty := max 1 (min r.blinkDuty.toNat 15)
    sync := .ofCode r.sync, clash := .ofCode r.clash, silent := .ofCode r.silent
    orphan := .ofCode r.orphan, drop := .ofCode r.drop, underrun := .ofCode r.underrun
    foreign := .ofCode r.foreign }

/-- An override mode byte (R137). -/
def readOverride (b : Byte) : Option OverrideMode :=
  if b = 0 then some .none else if b = 1 then some .dash else if b = 2 then some .test else none

end Sys2Proof.Machine
end

