-- ==== Sys2Proof/Machine/Layout.lean ====
section
/-! DEFINITION. The Layout store, LAY (spec/06_layout_records.md). -/

namespace Sys2Proof.Machine

/-- A LAYOUT record refused by the Layout store (R94). -/
def refuseRecord (kind : Nibble) (reason : Reason) (origin : Station) (s : State) : State :=
  s.refuse 7 kind reason origin

/-- LAYOUT_BAD_KIND (R94). -/
def execLayoutBadKind (rx : Rx) (kind : BadRecordKind) (s : State) : Result :=
  running (layoutParcel rx (badRecordKind kind)
    (refuseRecord (badRecordKind kind) .range rx.origin)) s

/-! ## Clearing and repainting label runs (R99, R103) -/

/-- A run of blank cells of a window (R99, R103). -/
def clearBurst (kind : BurstKind) (v : Window) (row column width : Nat) : Burst :=
  { kind := kind, row := v.top + row, column := column, cells := List.replicate width (blankCell v.background)
    owner := .layout, after := .nothing }

/-- A label run covers a cell of a region. -/
def LabelRun.covers (r : LabelRun) (g : Region) : Bool :=
  decide (r.page = g.page) && decide (r.row = g.row)
    && decide (r.column < g.column + g.length) && decide (g.column < r.column + r.glyphs.length)

/-- The label runs of a page that cover a cell of some regions, repainted whole in ascending run
index in the window that shows the page, above its height. A run that covers no such cell is not
repainted, even one of a higher index that shares a cell with a run that is (R99, R101, R103;
assumption 37). -/
def repaintRuns (labels : Tab LabelRun) (page : Nat) (v : Window) (regions : List Region) :
    List Burst :=
  (labels.filter (fun e =>
      decide (e.2.page = page) && decide (e.2.row < v.height) && regions.any e.2.covers)).map
    (fun e => labelBurst .layout v.top e.2)

/-- The repaints of a page's runs over some regions, where the page is shown (R99; R103 step 2). -/
def pageRepaints (s : State) (labels : Tab LabelRun) (regions : List Region) (page : Nat) :
    List Burst :=
  match s.showing page with
  | none => []
  | some (_, v) => repaintRuns labels page v regions

/-- Numbers in the order in which they first stand, each once. -/
def eachOnce (l : List Nat) : List Nat := l.foldl (fun m p => if m.contains p then m else m ++ [p]) []

/-! ## FIELD records (R96 to R99) -/

/-- The cells of a field as a region of its page. -/
def Field.region (f : Field) : Region :=
  { page := f.page, row := f.row, column := f.column, length := f.width }

/-- The burst that clears an unbound field's cells on a shown page (R99). -/
def unbindClear (s : State) (f : Field) : List Burst :=
  match s.showing f.page with
  | none => []
  | some (_, v) => if f.row < v.height then [clearBurst .fieldClear v f.row f.column f.width] else []

/-- The painter's burst when its field index is unbound: withdrawn before its grant, marked after it
(R124). -/
def unbindBurst (i : Nat) (b : PaintBurst) : Option PaintBurst :=
  if b.index = i then
    if b.stage = .waiting then none else some { b with unbound := true }
  else some b

/-- The Painter's part of an unbinding (R98, R115, R124). -/
def unbindPaint (i : Nat) (p : Pnt) : Pnt :=
  { p with
    highlights := p.highlights.filter (fun h => decide (h.index ≠ i))
    states := Tab.erase i p.states
    burst := p.burst.bind (unbindBurst i) }

/-- The Window controller's part of an unbinding: the index leaves the compose set (R144). -/
def unbindCompose (i : Nat) (s : State) : State :=
  match s.composingOf i with
  | none => s
  | some w => s.modWindow w fun v => { v with compose := v.compose.map (Compose.without i) }

/-- An index unbound, where it held a field (R98 step 1). -/
def unbind (i : Nat) (s : State) : State :=
  match Tab.look i s.lay.fields with
  | none => s
  | some _ =>
    (unbindCompose i (s.modPnt (unbindPaint i))).modLay fun l =>
      { l with fields := Tab.erase i l.fields }

/-- The compose set with an index added, in the FIELDS phase (R144). -/
def Compose.with (i : Nat) : Compose → Compose
  | .bursts => .bursts
  | .fields set => .fields (NatSet.insert i set)

/-- A field bound at an index (R98 step 2), and added to the compose set of a composing page (R144). -/
def bindField (i : Nat) (f : Field) (s : State) : State :=
  let s1 := s.modLay fun l => { l with fields := Tab.insert i f l.fields }
  match s1.showing f.page with
  | none => s1
  | some (w, v) =>
    if f.row < v.height then
      s1.modWindow w fun v => { v with compose := v.compose.map (Compose.with i) }
    else s1

/-- One index of a FIELD record's run, unbound and then bound or left without a field (R98). -/
def changeIndex (s : State) (c : Nat × EntryRead) : State :=
  match c.2 with
  | .delete => unbind c.1 s
  | .bind f => bindField c.1 f (unbind c.1 s)

/-- The indices of a run with what the record asks for at each. -/
def fieldRun (start : Nat) (l : List EntryRead) : List (Nat × EntryRead) :=
  (List.range' start l.length).zip l

/-- The field table after a run of changes. -/
def changeTable (t : Tab Field) (c : Nat × EntryRead) : Tab Field :=
  match c.2 with
  | .delete => Tab.erase c.1 t
  | .bind f => Tab.insert c.1 f t

/-- Two binding entries of one record share a cell, or one shares a cell with a bound field outside
the run (R97). -/
def overlaps (fields : Tab Field) (run : List (Nat × EntryRead)) : Bool :=
  let binds := run.filterMap fun c => c.2.field?.map fun f => (c.1, f)
  let outside := fields.filter fun e => !run.any fun c => decide (c.1 = e.1)
  binds.any fun b =>
    outside.any (fun e => sharesCell b.2 e.2)
      || binds.any (fun c => decide (c.1 ≠ b.1) && sharesCell b.2 c.2)

/-- The keys a run releases or binds. -/
def runKeys (fields : Tab Field) (run : List (Nat × EntryRead)) : List Key :=
  run.flatMap fun c => ((Tab.look c.1 fields).map Field.key).toList ++ c.2.key?.toList

/-- The fields a run unbinds, in ascending field index. -/
def unboundFields (fields : Tab Field) (run : List (Nat × EntryRead)) : List Field :=
  run.filterMap fun c => Tab.look c.1 fields

/-- The bursts a run's unbindings need: the clears, then for each page the label runs that cover a
cleared cell, each once, in ascending run index (R99; the order between pages: assumption 15). A run so
repainted may pass over the painted text of a field that the record does not name (assumption 45). -/
def runBursts (s : State) (run : List (Nat × EntryRead)) : List Burst :=
  let gone := unboundFields s.lay.fields run
  gone.flatMap (unbindClear s)
    ++ (eachOnce (gone.map Field.page)).flatMap
      (pageRepaints s s.lay.labels (gone.map Field.region))

/-- The new bindings of a run whose page is shown, in ascending field index (R99). Which they are is
settled when the record is taken, and all of them are enqueued after its last burst (assumption 42). -/
def runInitial (s : State) (run : List (Nat × EntryRead)) : List Nat :=
  (run.filter fun c => c.2.field?.any fun f => (s.showing f.page).isSome).map fun c => c.1

/-- Composes whose set has become empty end (R145). -/
def settleComposes (s : State) : State := (List.range 8).foldl (fun s w => settleCompose w s) s

/-- A FIELD record taken (R98, R99, R144). DESIGN CHOICE: no field but the new bindings is requested
afterwards, also where a repainted run has passed over its text (assumption 45). -/
def commitFields (run : List (Nat × EntryRead)) (pointer : Nat) (s : State) : State :=
  let s1 := (run.foldl changeIndex s).modLay fun l => { l with pointer := pointer }
  let s2 := settleKeys (runKeys s.lay.fields run) s1
  settleComposes (handOver (runBursts s run) (.initial (runInitial s run)) s2)

/-- The field index a FIELD record starts at (R96). -/
def fieldStart (l : Lay) (r : FieldRecord) : Nat := if r.atPointer then l.pointer else r.start.toNat

/-- LAY takes a FIELD record, with its tests in the order RANGE, OVERLAP, FULL (R94, R96 to R98). -/
def takeField (origin : Station) (r : FieldRecord) (s : State) : State :=
  match readEntries (cols s.straps) r with
  | none => refuseRecord 1 .range origin s
  | some l =>
    let start := fieldStart s.lay r
    let run := fieldRun start l
    if 512 < start + l.length then refuseRecord 1 .range origin s
    else if overlaps s.lay.fields run then refuseRecord 1 .overlap origin s
    else if overFull { s.lay with fields := run.foldl changeTable s.lay.fields } then
      refuseRecord 1 .full origin s
    else commitFields run (start + l.length) s

/-- FIELD (R98). -/
def execField (rx : Rx) (r : FieldRecord) (s : State) : Result :=
  running (layoutParcel rx 1 (takeField rx.origin r)) s

/-! ## LABEL records (R101 to R103) -/

/-- The characters held by all label runs (R102). -/
def labelChars (labels : Tab LabelRun) : Nat := (labels.map fun e => e.2.glyphs.length).sum

/-- The room of the label store (R102). -/
def labelRoom : Nat := 2048

/-- The label store with a run written or deleted. -/
def writeRunAt (i : Nat) (r : Option LabelRun) (t : Tab LabelRun) : Tab LabelRun :=
  match r with
  | none => Tab.erase i t
  | some r => Tab.insert i r t

/-- The cells of a label run as a region. -/
def LabelRun.region (r : LabelRun) : Region :=
  { page := r.page, row := r.row, column := r.column, length := r.glyphs.length }

/-- The burst that clears a run's old cells on a shown page (R103 step 1). -/
def oldRunBurst (s : State) (r : LabelRun) : List Burst :=
  match s.showing r.page with
  | none => []
  | some (_, v) => if r.row < v.height then [clearBurst .labelClear v r.row r.column r.glyphs.length] else []

/-- The pages of the old and the new run, each once (assumption 16). -/
def runPages (old new : Option LabelRun) : List Nat :=
  eachOnce ((old.toList ++ new.toList).map LabelRun.page)

/-- A LABEL record taken (R103). DESIGN CHOICE: the fields requested afterwards are those that meet the
record's own old and new cells, and not those that only another repainted run meets (assumption 45). -/
def commitLabel (i : Nat) (new : Option LabelRun) (s : State) : State :=
  let old := Tab.look i s.lay.labels
  let labels := writeRunAt i new s.lay.labels
  let regions := (old.toList ++ new.toList).map LabelRun.region
  let bursts := old.toList.flatMap (oldRunBurst s)
    ++ (runPages old new).flatMap (pageRepaints s labels regions)
  handOver bursts (.repaint regions) (s.modLay fun l => { l with labels := labels })

/-- LAY takes a LABEL record, with its tests in the order RANGE, FULL (R101, R102). -/
def takeLabel (origin : Station) (r : LabelRecord) (s : State) : State :=
  match readLabel (cols s.straps) r with
  | none => refuseRecord 2 .range origin s
  | some (i, new) =>
    if labelRoom < labelChars (writeRunAt i new s.lay.labels) then refuseRecord 2 .full origin s
    else commitLabel i new s

/-- LABEL (R101). -/
def execLabel (rx : Rx) (r : LabelRecord) (s : State) : Result :=
  running (layoutParcel rx 2 (takeLabel rx.origin r)) s

/-! ## WINDOW records (R104, R105) -/

/-- A band shares a row with the band of a window. -/
def sharesRow (top height : Nat) (v : Window) : Bool :=
  decide (top < v.top + v.height) && decide (v.top < top + height)

/-- A band shares a row with the band of another window that exists (R104). -/
def bandTaken (s : State) (w top height : Nat) : Bool :=
  s.win.any fun e => decide (e.1 ≠ w) && sharesRow top height e.2

/-- A WINDOW record's initial page read, with the RANGE tests of a record with a height (R104). -/
def readBand (s : State) (w : Nat) (r : WindowRecord) : Option (Option Nat) :=
  if freeRows s.straps < r.top.toNat + r.height.toNat then none
  else if bandTaken s w r.top.toNat r.height.toNat then none
  else readPageOrNone r.page

/-- The clears of a window's old rows to the reset cell (R105 step 5). DESIGN CHOICE: the top row is
handed over first (assumption 47). -/
def oldRows (s : State) (v : Window) : List Burst :=
  (List.range v.height).map fun k => rowBurst .oldRowClear .layout (cols s.straps) (v.top + k) resetCell

/-- A window left without a band, its carousel stopped and its override NONE (R105). -/
def ended (v : Window) : Window :=
  { v with
    top := 0
    height := 0
    background := 0
    carousel := .stopped
    freezeReq := false
    override := .none
    advanceDue := false
    dwellDue := false }

/-- The old window of a WINDOW record ended (R105 steps 1 to 5); a window that does not exist has
nothing to end. -/
def endWindow (w : Nat) (s : State) : State :=
  let v := s.window w
  if v.height = 0 then s
  else handOver (oldRows s v) .nothing ((endPage w s).modWindow w ended)

/-- The new band of a WINDOW record, and its initial page where that is free (R105). -/
def openWindow (w : Nat) (r : WindowRecord) (page : Option Nat) (s : State) : State :=
  let s1 := s.modWindow w fun v =>
    { v with top := r.top.toNat, height := r.height.toNat, background := r.background }
  match page with
  | none => s1
  | some p => if (s1.showing p).isSome then s1 else beginCompose w p s1

/-- LAY takes a WINDOW record (R104, R105). -/
def takeWindow (origin : Station) (r : WindowRecord) (s : State) : State :=
  match readWindow r.window with
  | none => refuseRecord 3 .range origin s
  | some w =>
    if r.height = 0 then endWindow w s
    else
      match readBand s w r with
      | none => refuseRecord 3 .range origin s
      | some page => openWindow w r page (endWindow w s)

/-- WINDOW (R104). -/
def execWindow (rx : Rx) (r : WindowRecord) (s : State) : Result :=
  running (layoutParcel rx 3 (takeWindow rx.origin r)) s

/-! ## The small tables (R106 to R111) -/

/-- LAY takes a POLICY record (R106). -/
def takePolicy (origin : Station) (r : PolicyRecord) (s : State) : State :=
  match readPolicy r with
  | none => refuseRecord 4 .range origin s
  | some (i, p) => s.modLay fun l => { l with policies := Tab.put defaultPolicy i p l.policies }

/-- POLICY (R106). -/
def execPolicy (rx : Rx) (r : PolicyRecord) (s : State) : Result :=
  running (layoutParcel rx 4 (takePolicy rx.origin r)) s

/-- LAY takes a PALETTE record (R107). -/
def takePalette (origin : Station) (r : PaletteRecord) (s : State) : State :=
  match readBelow 16 r.entry with
  | none => refuseRecord 5 .range origin s
  | some i =>
    s.modLay fun l =>
      { l with palette := Tab.put (defaultPalette i) i ⟨r.red, r.green, r.blue⟩ l.palette }

/-- PALETTE (R107). -/
def execPalette (rx : Rx) (r : PaletteRecord) (s : State) : Result :=
  running (layoutParcel rx 5 (takePalette rx.origin r)) s

/-- LAY takes a CONDLABEL record (R108). -/
def takeCondLabel (origin : Station) (r : CondLabelRecord) (s : State) : State :=
  match readBelow 16 r.code with
  | none => refuseRecord 6 .range origin s
  | some i => s.modLay fun l => { l with condLabels := Tab.put blankCondLabel i r.chars l.condLabels }

/-- CONDLABEL (R108). -/
def execCondLabel (rx : Rx) (r : CondLabelRecord) (s : State) : Result :=
  running (layoutParcel rx 6 (takeCondLabel rx.origin r)) s

/-- LAY takes a CAROUSEL record (R109). -/
def takeCarousel (origin : Station) (r : CarouselRecord) (s : State) : State :=
  match readStep r with
  | none => refuseRecord 7 .range origin s
  | some (i, st) => s.modLay fun l => { l with steps := Tab.put defaultStep i st l.steps }

/-- CAROUSEL (R109). -/
def execCarousel (rx : Rx) (r : CarouselRecord) (s : State) : Result :=
  running (layoutParcel rx 7 (takeCarousel rx.origin r)) s

/-- LAY takes a CRAWLPROG record, with its tests in the order RANGE, FULL (R110). -/
def takeProg (origin : Station) (r : CrawlProgRecord) (s : State) : State :=
  match readProg r with
  | none => refuseRecord 8 .range origin s
  | some (i, e) =>
    let old := Tab.get defaultProg i s.lay.prog
    let lay := { s.lay with prog := Tab.put defaultProg i e s.lay.prog }
    if overFull lay then refuseRecord 8 .full origin s
    else settleKeys (old.key.toList ++ e.key.toList) (s.modLay fun _ => lay)

/-- CRAWLPROG (R110). -/
def execCrawlProg (rx : Rx) (r : CrawlProgRecord) (s : State) : Result :=
  running (layoutParcel rx 8 (takeProg rx.origin r)) s

/-- A stale limit of 0 ends every stale deadline (R65). -/
def limitDeadlines (limit : Nat) (d : Dir) : Dir :=
  if limit = 0 then
    { d with records := Tab.mapValues (fun _ r => { r with deadline := none }) d.records }
  else d

/-- LAY takes a GLOBAL record (R65, R111, R112, R199, R205). -/
def takeGlobal (r : GlobalRecord) (s : State) : State :=
  refreshRow ((s.modLay fun l => { l with global := readGlobal r }).modDir
    (limitDeadlines (readGlobal r).staleLimit))

/-- GLOBAL (R111). -/
def execGlobal (rx : Rx) (r : GlobalRecord) (s : State) : Result :=
  running (layoutParcel rx 9 (takeGlobal r)) s

/-! ## LAYOUT CLEAR (R114, R182) -/

/-- The plane after a granted write. -/
def landWrite (plane : Tab Cell) (t : Option Write) : Tab Cell :=
  match t with
  | none => plane
  | some t => writeCells t.row t.column t.cells plane

/-- The plane with every cell outside the status row the reset cell (R182 step 3). -/
def clearPlane (keep : Option Nat) (plane : Tab Cell) : Tab Cell :=
  plane.filter fun e => decide (some (planeRow e.1) = keep)

/-- CPL's part of a LAYOUT CLEAR: the burst list withdrawn, a granted write completed, the plane
cleared; requests that wait keep waiting (R182; assumption 22). -/
def clearCpl (st : Straps) (c : Cpl) : Cpl :=
  { c with
    plane := clearPlane (statusRow st) (landWrite c.plane c.granted)
    bursts := []
    granted := none }

/-- CRW's part of a LAYOUT CLEAR (R114, R158). -/
def clearCrw (st : Straps) (c : Crw) : Crw :=
  { c with row := resetCrawlRow st, hold := none, queue := [], cursor := 0 }

/-- LAY takes a LAYOUT CLEAR (R114). The status row text stands, and a write of it that waits copies
it as it stands (R205), so that NO LAYOUT shows from the row's next rebuild on (assumption 43). -/
def clearLayout (s : State) : State :=
  { s with
    ptb := { s.ptb with origin := none }
    inq := []
    dir := { records := [], refresh := [] }
    lay := defaultLay
    pnt := resetPnt
    win := []
    crw := clearCrw s.straps s.crw
    cpl := clearCpl s.straps s.cpl }

/-- LAYOUT_CLEAR (R114). -/
def execLayoutClear (rx : Rx) (s : State) : Result := running (commandParcel rx 10 clearLayout) s

end Sys2Proof.Machine
end

