-- ==== Sys2Proof/Machine/Windows.lean ====
section
/-! DEFINITION. The commands of the Window controller, WIN, the freeze, thaw and override commands,
and the carousel's dwell (spec/07 R134 to R137; spec/08 R148 to R155). -/

namespace Sys2Proof.Machine

/-- A COMMAND refused by the block that takes it (R94, R134, R150). -/
def refuseCommand (code : Nibble) (reason : Reason) (origin : Station) (s : State) : State :=
  s.refuse 2 code reason origin

/-- A window exists while it has a height above 0 (R139). -/
def State.windowExists (s : State) (w : Nat) : Bool := decide (0 < (s.window w).height)

/-- A window operand; a command whose operand is above 7 is refused with RANGE (R134). -/
def onWindow (rx : Rx) (code : Nibble) (window : Byte) (act : Nat → State → State) (s : State) : State :=
  match readWindow window with
  | none => refuseCommand code .range rx.origin s
  | some w => act w s

/-! ## SHOW, RELEASE, RUN, HALT (R150 to R153) -/

/-- A RUNNING carousel pinned by a SHOW (R150). -/
def pinned (v : Window) : Window :=
  if v.carousel = .running then { v with carousel := .pinned, advanceDue := false, dwellDue := false }
  else v

/-- A SHOW that is taken (R150). -/
def showTaken (w page : Nat) (s : State) : State :=
  let s1 := s.modWindow w pinned
  if (s.window w).page = some page then s1 else beginCompose w page s1

/-- WIN takes a SHOW (R150). -/
def takeShow (origin : Station) (window page : Byte) (s : State) : State :=
  match readWindow window, readPage page with
  | some w, some p =>
    if !s.windowExists w then refuseCommand 1 .range origin s
    else if s.shownElsewhere p w then refuseCommand 1 .busy origin s
    else showTaken w p s
  | some _, none => refuseCommand 1 .range origin s
  | none, _ => refuseCommand 1 .range origin s

/-- SHOW (R150). -/
def execShowPage (rx : Rx) (window page : Byte) (s : State) : Result :=
  running (commandParcel rx 1 (takeShow rx.origin window page)) s

/-- A PINNED carousel set RUNNING. -/
def unpinned (v : Window) : Window := { v with carousel := .running }

/-- The interrupted step resumed (R151; assumption 12). -/
def resumeStep (w : Nat) (s : State) : State :=
  let v := s.window w
  if s.programLength w = 0 then s.modWindow w stopped
  else if s.programLength w ≤ v.step ∨ v.dwell = 0 then expireDwell w (s.modWindow w fun v => { v with dwell := 0 })
  else
    match (s.stepAt w v.step).page with
    | none => s
    | some q =>
      if s.shownElsewhere q w then expireDwell w s.tallySkip
      else if v.page = some q then s
      else beginCompose w q s

/-- WIN takes a RELEASE (R151). -/
def takeRelease (w : Nat) (s : State) : State :=
  if (s.window w).carousel = .pinned then resumeStep w (s.modWindow w unpinned) else s

/-- RELEASE (R151). -/
def execRelease (rx : Rx) (window : Byte) (s : State) : Result :=
  running (commandParcel rx 2 (onWindow rx 2 window takeRelease)) s

/-- WIN takes a RUN (R152). -/
def takeRun (origin : Station) (w : Nat) (s : State) : State :=
  if !s.windowExists w then refuseCommand 3 .range origin s
  else if (s.window w).carousel = .stopped then
    if s.programLength w = 0 then s else selectStep w 0 (s.modWindow w unpinned)
  else s

/-- RUN (R152). -/
def execRun (rx : Rx) (window : Byte) (s : State) : Result :=
  running (commandParcel rx 3 (onWindow rx 3 window (takeRun rx.origin))) s

/-- A carousel halted (R153). -/
def halted (v : Window) : Window :=
  { v with carousel := .stopped, step := 0, dwell := 0, advanceDue := false, dwellDue := false }

/-- WIN takes a HALT (R153). -/
def takeHalt (w : Nat) (s : State) : State := s.modWindow w halted

/-- HALT (R153). -/
def execHalt (rx : Rx) (window : Byte) (s : State) : Result :=
  running (commandParcel rx 4 (onWindow rx 4 window takeHalt)) s

/-! ## FREEZE, THAW, OVERRIDE (R134 to R137, R154) -/

/-- A window as a FREEZE leaves it (R134). -/
def frozenBy (v : Window) : Window :=
  match v.state with
  | .showing => { v with state := .frozen, dirty := false }
  | .composing => { v with freezeReq := true }
  | .frozen => v
  | .empty => v

/-- WIN takes a FREEZE (R134). -/
def takeFreeze (w : Nat) (s : State) : State := s.modWindow w frozenBy

/-- FREEZE (R134). -/
def execFreeze (rx : Rx) (window : Byte) (s : State) : Result :=
  running (commandParcel rx 5 (onWindow rx 5 window takeFreeze)) s

/-- The visible fields of a window (R140). -/
def State.visible (s : State) (w : Nat) : List Nat :=
  match (s.window w).page with
  | none => []
  | some p => visibleFields s.lay.fields p (s.window w).height

/-- A FROZEN window thawed: SHOWING, and the thaw pass where its page is DIRTY (R136). -/
def unfreeze (w : Nat) (s : State) : State :=
  let s1 := s.modWindow w fun v => { v with state := .showing, dirty := false }
  if (s.window w).dirty then s1.enqueue .thaw (s.visible w) else s1

/-- WIN takes a THAW (R136, R149). -/
def takeThaw (w : Nat) (s : State) : State :=
  match (s.window w).state with
  | .frozen => if (s.window w).advanceDue then advance w (unfreeze w s) else unfreeze w s
  | .composing => s.modWindow w fun v => { v with freezeReq := false }
  | .showing => s
  | .empty => s

/-- THAW (R136). -/
def execThaw (rx : Rx) (window : Byte) (s : State) : Result :=
  running (commandParcel rx 6 (onWindow rx 6 window takeThaw)) s

/-- WIN takes an OVERRIDE, and PNT its pass (R137). -/
def takeOverride (m : OverrideMode) (w : Nat) (s : State) : State :=
  let s1 := s.modWindow w fun v => { v with override := m }
  if (s.window w).state = .empty then s1 else s1.enqueue .repaint (s.visible w)

/-- OVERRIDE (R137). -/
def execOverride (rx : Rx) (window mode : Byte) (s : State) : Result :=
  running (commandParcel rx 7 (onWindow rx 7 window fun w s =>
    match readOverride mode with
    | none => refuseCommand 7 .range rx.origin s
    | some m => takeOverride m w s)) s

/-! ## The dwell (R148, R149) -/

/-- A window's dwell counts at a sweep start (R148). -/
def dwellCounts (v : Window) : Bool :=
  decide (v.carousel = .running) && decide (0 < v.dwell) && decide (v.state ≠ .composing) && !v.advanceDue

/-- A window's remaining dwell at a sweep start. The last 1 is lowered by DWELL_EXPIRY, so that a
SHOW taken before it pins the carousel with remaining dwell 1 (R155, assumption 27). -/
def countDwell (v : Window) : Window :=
  if dwellCounts v then
    if v.dwell = 1 then { v with dwellDue := true } else { v with dwell := v.dwell - 1, dwellDue := false }
  else { v with dwellDue := false }

/-- WIN's count of the dwells at a sweep start (R148). -/
def countDwells (s : State) : State :=
  s.modWin (Tab.mapPut resetWindow countDwell)

/-- A carousel's dwell expires at the present sweep start (R148, R149). -/
def expiresNow (v : Window) : Bool := v.dwellDue && dwellCounts v

/-- WIN's dwell expiry of a window (R149). -/
def takeDwellExpiry (w : Nat) (s : State) : State :=
  if expiresNow (s.window w) then
    expireDwell w (s.modWindow w fun v => { v with dwell := 0, dwellDue := false })
  else s

/-- DWELL_EXPIRY (R149). -/
def execDwellExpiry (window : BitVec 3) (s : State) : Result :=
  running (takeDwellExpiry window.toNat) s

end Sys2Proof.Machine
end

