-- ==== Sys2Proof/Machine/Link.lean ====
section
/-! DEFINITION. The Desk Link interface, LNK: reset, sweep marks, the synchronisation states, the
sweep start and the two kinds of transmission (spec/01_desk_link.md). An event that is not due
changes nothing (assumption 6). -/

namespace Sys2Proof.Machine

/-! ## Reset (R5) -/

/-- RESETN_ASSERT (R5): both lines are left to the other stations. -/
def execResetnAssert (s : State) : Result :=
  .next { s with resetHeld := true, lnk := { s.lnk with dls := none, dld := none } }

/-- RESETN_RELEASE (R5, R194). -/
def execResetnRelease (straps : Straps) (dlsLow : Bool) (s : State) : Result :=
  .next (if s.resetHeld then State.released straps dlsLow s.pending else s)

/-! ## The sweep start (R4) -/

/-- The lap index a sweep start brings (R4). -/
def nextLap (m : MarkClass) (lap : Lap) : Lap :=
  match m with
  | .short => lap + 1
  | .long => 0

/-- LNK's part of a sweep start (R4, R7). -/
def countSweep (m : MarkClass) (l : Lnk) : Lnk :=
  { l with sweep := l.sweep + 1, lap := nextLap m l.lap, longSeen := l.longSeen || decide (m = .long) }

/-- A crawl step is due at a lap index (R157, R159). -/
def stepsAt (st : Straps) (lap interval : Nat) : Bool := (role st).hasRow && decide (lap % interval = 0)

/-- CRW's part of a sweep start: the interval in force, the step due, the hand-off no longer due
(R112, R159, R164; assumption 14). -/
def crawlSweep (s : State) : State :=
  s.modCrw fun c =>
    { c with
      interval := s.lay.global.interval
      stepDue := stepsAt s.straps s.lnk.lap.toNat s.lay.global.interval
      handoffDue := false }

/-- STS's part of a sweep start: a lap start at lap index 0 (R199). -/
def lapSweep (s : State) : State := s.modSts fun t => { t with lapDue := decide (s.lnk.lap = 0) }

/-- A sweep start: the sweep number and lap index, then what each block does at it that has no row of
its own in the table (R4, assumption 5). A free-run expiry counts as a short mark. -/
def sweepStart (m : MarkClass) (s : State) : State :=
  beginRefreshPass (countDwells (lapSweep (crawlSweep (s.modLnk (countSweep m)))))

/-! ## Sweep marks (R2, R10, R12) -/

/-- The home slot in progress, whose parcel a mark cuts, is not heard (R12, R20). -/
def cutHeard (l : Lnk) : Lnk := { l with heard := NatSet.remove (l.timer / slotBits) l.heard }

/-- LNK at the falling edge of a recognised mark (R1, R2, R3, R12). -/
def beginMark (l : Lnk) : Lnk :=
  { restartTimer (cutHeard l) with
    markInProgress := true, freeRunDue := false, lowSinceRelease := false, freeTime := none,
    dld := none }

/-- A falling edge is recognised as a mark: not while a mark is in progress, and in STUCK only once
the line has been free (R2, R10). -/
def recognises (l : Lnk) : Bool := !l.markInProgress && (decide (l.sync ≠ .stuck) || l.lineFree)

/-- LNK's recognition of a mark at the bit time of its falling edge. -/
def recogniseMark (edge : Nat) (l : Lnk) : Lnk :=
  if recognises (advanceTo edge l) then beginMark (advanceTo edge l) else l

/-- SWEEP_MARK_RECOGNISED (R2). -/
def execSweepMarkRecognised (edge : Nat) (s : State) : Result := running (fun s => s.modLnk (recogniseMark edge)) s

/-- The class of a low time; none for a pulse that is no mark and for a stuck line (R2). -/
def classOf (low : Nat) : Option MarkClass :=
  if low < 8 then none else if low ≤ 32 then some .short else if low ≤ 320 then some .long else none

/-- LNK at the rising edge of a short or long mark: FOLLOW, the line free from now (R5, R9, R10). -/
def endMark (low : Nat) (l : Lnk) : Lnk :=
  { advanceTo low l with sync := .follow, markInProgress := false, freeTime := some 0, dls := none }

/-- The classification of a mark and its sweep start (R2, R4). -/
def classifyMark (low : Nat) (s : State) : State :=
  match classOf low with
  | none => s
  | some m => if s.lnk.markInProgress then sweepStart m (s.modLnk (endMark low)) else s

/-- MARK_CLASSIFIED (R2). -/
def execMarkClassified (low : Nat) (s : State) : Result := running (classifyMark low) s

/-! ## Stuck lines (R9, R10) -/

/-- LNK in STUCK: DLD and DLS released, the mark no longer in progress (R9). -/
def enterStuck (l : Lnk) : Lnk :=
  { l with sync := .stuck, markInProgress := false, dls := none, dld := none }

/-- SYNC raised to the Status unit at an entry into STUCK (R9, R200). -/
def raiseSync (s : State) : State :=
  if s.lnk.sync = .stuck then s else s.modSts fun t => { t with syncSeen := true }

/-- The classification of a stuck line: a mark's low time, or a low line since RESETn release, passes
320 bit times (R5, R9, R10). DESIGN CHOICE: the parcel that R9 treats as cut is one this station sends;
a reception in slot 1 goes on in STUCK (assumption 48). -/
def takeStuck (s : State) : State :=
  if s.lnk.markInProgress then (raiseSync s).modLnk fun l => enterStuck (advanceTo 320 l)
  else if s.lnk.sync = .listen ∧ s.lnk.lowSinceRelease then
    (raiseSync s).modLnk fun l => enterStuck (restartTimer (advanceTo 320 l))
  else s

/-- STUCK_LINE (R9). -/
def execStuckLine (s : State) : Result := running takeStuck s

/-- LNK at a rising edge of a line that no mark holds low: its free time begins at that edge, after
a low period that was no mark as after a stuck one (R2, R5, R10). -/
def riseLine (edge : Nat) (l : Lnk) : Lnk :=
  if l.markInProgress then l
  else { advanceTo edge l with freeTime := some 0, lowSinceRelease := false }

/-- STUCK_LINE_RISING_EDGE (R10). -/
def execStuckLineRisingEdge (edge : Nat) (s : State) : Result := running (fun s => s.modLnk (riseLine edge)) s

/-- LNK at a falling edge in STUCK that is not recognised as a mark: the free time is to be measured
anew and the timer runs on. The edge of a pulse too short to be a mark breaks the free time in the
same way once the line has been free (R2, R10; assumption 35). -/
def fallUnrecognised (edge : Nat) (l : Lnk) : Lnk :=
  if l.sync ≠ .stuck ∨ l.markInProgress then l else { advanceTo edge l with freeTime := none }

/-- UNRECOGNISED_FALLING_EDGE (R10). -/
def execUnrecognisedFallingEdge (edge : Nat) (s : State) : Result :=
  running (fun s => s.modLnk (fallUnrecognised edge)) s

/-! ## Timer expiries (R3, R5, R10) -/

/-- A timer expiry in FOLLOW: a mark is driven, or a mute listener enters slot 0 of a new sweep
(R3). -/
def followExpiry (muted : Bool) (l : Lnk) : Lnk :=
  if muted then { restartTimer l with freeRunDue := true } else { l with dls := some (markToDrive l) }

/-- The LISTEN period can run out (R5). -/
def listens (l : Lnk) : Bool := decide (l.sync = .listen) && !l.markInProgress && !l.lowSinceRelease

/-- LNK at the end of the LISTEN period (R5). -/
def endListen (muted : Bool) (l : Lnk) : Lnk :=
  if listens l then followExpiry muted { advanceTo listenBits l with sync := .follow } else l

/-- LISTEN_PERIOD_EXPIRY (R5). -/
def execListenPeriodExpiry (s : State) : Result := running (fun s => s.modLnk (endListen (mute s.straps))) s

/-- The sweep timer can expire in FOLLOW: no mark driven or recognised since its restart (R3). -/
def followRuns (l : Lnk) : Bool :=
  decide (l.sync = .follow) && l.slotRunning && !l.markInProgress && !l.freeRunDue && decide (l.dls = none)

/-- LNK at a timer expiry in FOLLOW (R3). -/
def expireTimer (muted : Bool) (l : Lnk) : Lnk :=
  if followRuns l then followExpiry muted (advanceTo sweepBits l) else l

/-- SWEEP_TIMER_EXPIRY (R3). -/
def execSweepTimerExpiry (s : State) : Result := running (fun s => s.modLnk (expireTimer (mute s.straps))) s

/-- LNK at the end of the slot 0 after a mute listener's timer expiry (R3). -/
def endFreeSlot (l : Lnk) : Lnk := { advanceTo slotBits l with freeRunDue := false }

/-- The free-run sweep start of a mute listener in FOLLOW (R3, R4). -/
def takeFreeRun (s : State) : State :=
  if s.lnk.freeRunDue && decide (s.lnk.sync = .follow) then sweepStart .short (s.modLnk endFreeSlot) else s

/-- FREE_RUN_EXPIRY (R4). -/
def execFreeRunExpiry (s : State) : Result := running takeFreeRun s

/-- The sweep timer can expire in STUCK (R10). -/
def stuckRuns (l : Lnk) : Bool :=
  decide (l.sync = .stuck) && !l.markInProgress && decide (l.dls = none)

/-- The timer expiry in STUCK: a mark to end the state when the line is free, else a free-run sweep
start (R10). -/
def takeStuckTimer (s : State) : State :=
  if stuckRuns s.lnk then
    let l := advanceTo sweepBits s.lnk
    if l.lineFree && !mute s.straps then s.modLnk fun _ => { l with dls := some (markToDrive l) }
    else sweepStart .short (s.modLnk fun _ => restartTimer l)
  else s

/-- STUCK_TIMER_EXPIRY (R10). -/
def execStuckTimerExpiry (s : State) : Result := running takeStuckTimer s

/-! ## Lap-listen (R7) -/

/-- A sweep start that ends lap-listen has been raised (R7). -/
def lapListenOver (l : Lnk) : Bool := l.longSeen || decide (2048 ≤ l.sweep.toNat)

/-- LNK's end of lap-listen (R7). -/
def endLapListen (l : Lnk) : Lnk := { l with lapListen := l.lapListen && !lapListenOver l }

/-- LAP_LISTEN_END (R7). -/
def execLapListenEnd (s : State) : Result := running (fun s => s.modLnk endLapListen) s

/-! ## The home slot (R13, R14) -/

/-- The row's leftmost cell (R164). -/
def State.leftmost (s : State) : CrawlCell := s.crw.row.head?.getD s.blank

/-- The home-slot parcel as it is built when the slot begins (R13). -/
def homeParcel (s : State) : Parcel :=
  if s.crw.handoffDue then handoffParcel s.own s.nextTag s.leftmost
  else presenceParcel s.own (role s.straps) s.ptb.origin s.lnk.lapListen

/-- LNK may begin to transmit in a slot: FOLLOW, not mute, the slot still to come, nothing driven, and
no parcel begun in that slot already: after a clash or a lost arbitration nothing is sent again in the
same slot (R6, R13, R14, R16, R17). DESIGN CHOICE: no transmission begins while a mark is in progress, so station 1 sends
nothing in a home slot that begins with the line still low (assumption 44). -/
def maySend (s : State) (slot : Nat) : Bool :=
  decide (s.lnk.sync = .follow) && !mute s.straps && s.lnk.slotRunning && !s.lnk.markInProgress
    && decide (s.lnk.timer ≤ slotStart slot) && decide (s.lnk.begunSlot ≠ some slot)
    && decide ((advanceTo (slotStart slot) s.lnk).dld = none)

/-- A parcel driven in a slot from its start. -/
def driveParcel (x : Tx) (l : Lnk) : Lnk :=
  { advanceTo (slotStart x.slot) l with dld := some x, begunSlot := some x.slot }

/-- LNK's home-slot transmission (R13). -/
def sendHome (s : State) : State :=
  if maySend s s.own.toNat then
    s.modLnk (driveParcel { slot := s.own.toNat, home := true, parcel := homeParcel s })
  else s

/-- HOME_SLOT_TRANSMIT (R13). -/
def execHomeSlotTransmit (s : State) : Result := running sendHome s

/-- DLD released for the rest of the slot. -/
def releaseDld (s : State) : State := s.modLnk fun l => { l with dld := none }

/-- A mismatch in the home slot (R14). -/
def clashHome (s : State) : State :=
  if s.lnk.dld.any (fun x => x.home) then (releaseDld s).raiseClash else s

/-- HOME_SLOT_CLASH (R14). -/
def execHomeSlotClash (s : State) : Result := running clashHome s

/-! ## Open slots (R16, R17) -/

/-- LNK's attempt in an open slot with the parcel at the head of its queue (R16). -/
def attemptOpen (slot : Nat) (s : State) : State :=
  match s.lnk.txq with
  | [] => s
  | p :: _ =>
    if 16 ≤ slot ∧ maySend s slot then s.modLnk (driveParcel { slot := slot, home := false, parcel := p })
    else s

/-- OPEN_SLOT_ATTEMPT (R16). -/
def execOpenSlotAttempt (slot : Slot) (s : State) : Result := running (attemptOpen slot.toNat) s

/-- LNK after an open-slot parcel has been sent whole (R17). -/
def sentOpen (slot : Nat) (l : Lnk) : Lnk :=
  { advanceTo (parcelEnd slot) l with dld := none, sentSlot := some slot, txq := l.txq.tail }

/-- The parcel at the head of the queue dropped. -/
def dropHead (s : State) : State := s.modLnk fun l => { l with txq := l.txq.tail }

/-- The outcome of an attempt, by the bit of its first mismatch (R17). -/
def openOutcome (mismatch : Option Byte) (x : Tx) (s : State) : State :=
  match mismatch with
  | none => s.modLnk (sentOpen x.slot)
  | some b => if b.toNat < 8 then releaseDld s else (dropHead (releaseDld s)).raiseClash

/-- LNK's open-slot attempt ends (R17). -/
def endOpen (mismatch : Option Byte) (s : State) : State :=
  match s.lnk.dld with
  | none => s
  | some x => if x.home then s else openOutcome mismatch x s

/-- OPEN_SLOT_OUTCOME (R17). -/
def execOpenSlotOutcome (mismatch : Option Byte) (s : State) : Result := running (endOpen mismatch) s

/-! ## Receptions that reach no block (R11, R18, R19, R21) -/

/-- A reception that ends in a count. -/
def discardParcel (slot : Slot) (count : State → State) (s : State) : State :=
  if s.lnk.receives slot then count (s.modLnk (advanceTo (parcelEnd slot.toNat))) else s

/-- CRC_ERROR (R18): a truncated parcel counts as one (R11). -/
def execCrcError (slot : Slot) (s : State) : Result := running (discardParcel slot State.countCrc) s

/-- MALFORMED_PARCEL (R19 step 2). -/
def execMalformedParcel (slot : Slot) (s : State) : Result :=
  running (discardParcel slot State.tallyMalformed) s

/-- A REFRESH is targeted, a STATUS is not (R19 step 5). -/
def IgnoredKind.targeted : IgnoredKind → Bool
  | .refresh => true
  | .status => false

/-- GOOD_PARCEL_IGNORED (R21). -/
def execGoodParcelIgnored (rx : Rx) (kind : IgnoredKind) (s : State) : Result :=
  running (receive rx (Sys2Proof.Machine.IgnoredKind.targeted kind) id) s

end Sys2Proof.Machine
end

