-- ==== Sys2Proof/Machine/Peers.lean ====
section
/-! DEFINITION. The peer table, the mark table and the layout origin, PTB
(spec/02_peer_table_marks_and_layout_origin.md). -/

namespace Sys2Proof.Machine

/-- Station n's peer entry. -/
def State.peer (s : State) (n : Station) : Peer := Tab.get resetPeer n.toNat s.ptb.peers

/-- Station n's peer entry changed. -/
def setPeer (n : Station) (e : Peer) (s : State) : State :=
  s.modPtb fun p => { p with peers := Tab.put resetPeer n.toNat e p.peers }

/-- A miss count one higher, held at 8 (R24). -/
def nextMiss (n : Nat) : Nat := min 8 (n + 1)

/-- A peer entry after a home-slot report, and whether it raises a silence event (R24). -/
def reportPeer (heard : Bool) (e : Peer) : Peer × Bool :=
  if heard then ({ e with state := .present, misses := 0 }, false)
  else
    match e.state with
    | .absent => ({ e with misses := nextMiss e.misses }, false)
    | .present =>
      if e.misses < 7 then ({ e with misses := nextMiss e.misses }, false)
      else ({ state := .silent, kind := .unknown, misses := 8 }, true)
    | .silent => ({ e with misses := 8 }, false)

/-- The layout origin released when it is the station (R35). -/
def releaseOrigin (n : Station) (s : State) : State :=
  s.modPtb fun p => { p with origin := if p.origin = some n then none else p.origin }

/-- A silence event or kind change event of a station, delivered to the directory, the mark table and
the layout origin (R26, R27). -/
def stationGone (n : Station) (s : State) : State :=
  releaseOrigin n (setMark n none (switchSources n s))

/-- The home-slot report of a station (R20, R24). -/
def reportStation (n : Station) (s : State) : State :=
  let heard := s.lnk.heard.contains n.toNat
  let s1 := s.modLnk fun l => { l with heard := NatSet.remove n.toNat l.heard }
  let s2 := setPeer n (reportPeer heard (s.peer n)).1 s1
  if (reportPeer heard (s.peer n)).2 then stationGone n s2 else s2

/-- LNK reports a home slot: in FOLLOW and STUCK, on a running slot count, for every station but the
own number (R20). -/
def reportsHome (s : State) (n : Station) : Bool :=
  decide (s.lnk.sync ≠ .listen) && s.lnk.slotRunning && decide (n ≠ 0) && decide (n ≠ s.own)

/-- LNK at the end of a home slot; a slot that a mark has cut ends with the mark's falling edge
(R12, assumption 4). -/
def slotEnded (n : Station) (l : Lnk) : Lnk :=
  if l.markInProgress then l else advanceTo (slotStart (n.toNat + 1)) l

/-- HOME_SLOT_REPORT (R24). -/
def execHomeSlotReport (n : Station) (s : State) : Result :=
  running (fun s =>
    if reportsHome s n then reportStation n (s.modLnk (slotEnded n)) else s) s

/-- The station kind of a PRESENCE's kind byte (R25). -/
def kindOf (b : Byte) : PeerKind :=
  if b = 1 then .feed else if b = 2 then .console else if b = 3 then .painter else .other

/-- A PRESENCE of another known kind reaches a PRESENT entry (R27). -/
def kindChanges (e : Peer) (k : PeerKind) : Bool :=
  decide (e.state = .present) && decide (e.kind ≠ .unknown) && decide (e.kind ≠ k)

/-- PTB takes a PRESENCE (R25, R27). -/
def takePresence (n : Station) (k : PeerKind) (s : State) : State :=
  let s1 := setPeer n { s.peer n with kind := k } s
  if kindChanges (s.peer n) k then stationGone n s1 else s1

/-- PRESENCE (R25). -/
def execPresence (rx : Rx) (b : PresenceBody) (s : State) : Result :=
  running (receive rx false (takePresence rx.origin (kindOf b.kind))) s

/-- MARK (R29): bit 0 of the sub nibble sets or clears. -/
def execMark (rx : Rx) (sub : Nibble) (key : Key) (s : State) : Result :=
  running (receive rx false (setMark rx.origin (if sub.getLsbD 0 then some key else none))) s

end Sys2Proof.Machine
end

