-- ==== Sys2Proof/Machine/Dispatch.lean ====
section
/-! DEFINITION. The meaning of every command: one arm for each row of spec/opcode_table.json. -/

namespace Sys2Proof.Machine

/-- The effect of a command on everything but the queue. -/
def exec (i : Instr) (s : State) : Host.Outcome State Fault Refusal :=
  match i with
  | .resetnAssert => Sys2Proof.Machine.execResetnAssert s
  | .resetnRelease straps dlsLow => Sys2Proof.Machine.execResetnRelease straps dlsLow s
  | .listenPeriodExpiry => Sys2Proof.Machine.execListenPeriodExpiry s
  | .sweepMarkRecognised edge => Sys2Proof.Machine.execSweepMarkRecognised edge s
  | .markClassified low => Sys2Proof.Machine.execMarkClassified low s
  | .stuckLine => Sys2Proof.Machine.execStuckLine s
  | .sweepTimerExpiry => Sys2Proof.Machine.execSweepTimerExpiry s
  | .freeRunExpiry => Sys2Proof.Machine.execFreeRunExpiry s
  | .stuckTimerExpiry => Sys2Proof.Machine.execStuckTimerExpiry s
  | .lapListenEnd => Sys2Proof.Machine.execLapListenEnd s
  | .homeSlotTransmit => Sys2Proof.Machine.execHomeSlotTransmit s
  | .homeSlotClash => Sys2Proof.Machine.execHomeSlotClash s
  | .openSlotAttempt slot => Sys2Proof.Machine.execOpenSlotAttempt slot s
  | .openSlotOutcome mismatch => Sys2Proof.Machine.execOpenSlotOutcome mismatch s
  | .homeSlotReport station => Sys2Proof.Machine.execHomeSlotReport station s
  | .crcError slot => Sys2Proof.Machine.execCrcError slot s
  | .malformedParcel slot => Sys2Proof.Machine.execMalformedParcel slot s
  | .goodParcelIgnored rx kind => Sys2Proof.Machine.execGoodParcelIgnored rx kind s
  | .presence rx body => Sys2Proof.Machine.execPresence rx body s
  | .mark rx sub key => Sys2Proof.Machine.execMark rx sub key s
  | .tick rx body => Sys2Proof.Machine.execTick rx body s
  | .intakeTake => Sys2Proof.Machine.execIntakeTake s
  | .commandBadCode rx code => Sys2Proof.Machine.execCommandBadCode rx code s
  | .showPage rx window page => Sys2Proof.Machine.execShowPage rx window page s
  | .release rx window => Sys2Proof.Machine.execRelease rx window s
  | .run rx window => Sys2Proof.Machine.execRun rx window s
  | .halt rx window => Sys2Proof.Machine.execHalt rx window s
  | .freeze rx window => Sys2Proof.Machine.execFreeze rx window s
  | .thaw rx window => Sys2Proof.Machine.execThaw rx window s
  | .override rx window mode => Sys2Proof.Machine.execOverride rx window mode s
  | .crawlFlush rx => Sys2Proof.Machine.execCrawlFlush rx s
  | .counterClear rx => Sys2Proof.Machine.execCounterClear rx s
  | .layoutClear rx => Sys2Proof.Machine.execLayoutClear rx s
  | .layoutBadKind rx kind => Sys2Proof.Machine.execLayoutBadKind rx kind s
  | .field rx body => Sys2Proof.Machine.execField rx body s
  | .label rx body => Sys2Proof.Machine.execLabel rx body s
  | .window rx body => Sys2Proof.Machine.execWindow rx body s
  | .policy rx body => Sys2Proof.Machine.execPolicy rx body s
  | .palette rx body => Sys2Proof.Machine.execPalette rx body s
  | .condlabel rx body => Sys2Proof.Machine.execCondLabel rx body s
  | .carousel rx body => Sys2Proof.Machine.execCarousel rx body s
  | .crawlprog rx body => Sys2Proof.Machine.execCrawlProg rx body s
  | .global rx body => Sys2Proof.Machine.execGlobal rx body s
  | .handoff rx body => Sys2Proof.Machine.execHandoff rx body s
  | .crawltext rx body => Sys2Proof.Machine.execCrawlText rx body s
  | .crawlStep => Sys2Proof.Machine.execCrawlStep s
  | .staleExpiry => Sys2Proof.Machine.execStaleExpiry s
  | .refreshDeadline => Sys2Proof.Machine.execRefreshDeadline s
  | .pendingRelease => Sys2Proof.Machine.execPendingRelease s
  | .highlightExpiry => Sys2Proof.Machine.execHighlightExpiry s
  | .dwellExpiry window => Sys2Proof.Machine.execDwellExpiry window s
  | .lapStart => Sys2Proof.Machine.execLapStart s
  | .paintService => Sys2Proof.Machine.execPaintService s
  | .paintCommit => Sys2Proof.Machine.execPaintCommit s
  | .portGrant => Sys2Proof.Machine.execPortGrant s
  | .transferComplete => Sys2Proof.Machine.execTransferComplete s
  | .frameStart => Sys2Proof.Machine.execFrameStart s
  | .rowFetch => Sys2Proof.Machine.execRowFetch s
  | .stuckLineRisingEdge edge => Sys2Proof.Machine.execStuckLineRisingEdge edge s
  | .unrecognisedFallingEdge edge => Sys2Proof.Machine.execUnrecognisedFallingEdge edge s

end Sys2Proof.Machine
end

