-- ==== Sys2Proof/Machine/Step.lean ====
section
/-! DEFINITION. One step of the block: the command at the front of the queue, or one bit time when
no command waits. -/

namespace Sys2Proof.Machine

/-- The bit time at which the sweep timer's present count ends: the sweep length, or the LISTEN period
until the first restart (R1, R5). -/
def timerEnd (l : Lnk) : Nat := if l.slotRunning then sweepBits else listenBits

/-- LNK one bit time later (R1). -/
def tickLink (l : Lnk) : Lnk := if l.timer < timerEnd l then advanceTo (l.timer + 1) l else l

/-- What passes while no command waits: one bit time of the link clock, none while RESETn is held low
(R1; assumption 3). -/
def idle (s : State) : State := if s.resetHeld then s else s.modLnk tickLink

/-- One step: the command at the front of the queue is taken on the queue's rest (assumption 21). -/
def step (s : State) : Host.Outcome State Fault Refusal :=
  match s.pending with
  | [] => .next (idle s)
  | c :: rest => exec c { s with pending := rest }

/-- A state with the command that a table word spells put at the front of its queue; the table gives no
row any bits, so no word spells one (assumption 21). -/
def State.withFetchWord (s : State) (nbits w : Nat) : State :=
  match decodeTableWord nbits w with
  | none => s
  | some c => { s with pending := c :: s.pending }

end Sys2Proof.Machine
end

