-- ==== Sys2Proof/Safety.lean ====
section
/-! DEFINITION. What counts as a sound state: the properties that the manual says always hold, in the
terms the statements use. -/

namespace Sys2Proof.Machine

/-- Every queue and list is within the room the manual gives it (R15, R41, R54, R69, R116, R130,
R179). -/
def State.withinRooms (s : State) : Prop :=
  s.lnk.txq.length ≤ txRoom ∧ s.inq.length ≤ intakeRoom ∧ s.dir.refresh.length ≤ refreshRoom ∧
    s.pnt.highlights.length ≤ highlightRoom ∧ s.cpl.bursts.length ≤ burstRoom

/-- A window shows a page: it is COMPOSING, SHOWING or FROZEN with it (R140). -/
def State.shows (s : State) (w p : Nat) : Prop :=
  (s.window w).state ≠ .empty ∧ (s.window w).page = some p

/-- No page is assigned to more than one window (R140). -/
def State.onePagePerWindow (s : State) : Prop :=
  ∀ w₁ w₂ p, s.shows w₁ p → s.shows w₂ p → w₁ = w₂

/-- A window's state, shown page, frozen flag, compose progress and band agree (spec/08, section 8.1,
R139): a page exactly outside EMPTY, compose progress exactly in COMPOSING, DIRTY in FROZEN alone, a
freeze request in COMPOSING alone, an advance due in FROZEN alone, and a window without a band EMPTY
and STOPPED. -/
def Window.agrees (v : Window) : Prop :=
  (v.page = none ↔ v.state = .empty) ∧ (v.compose = none ↔ v.state ≠ .composing) ∧
    (v.dirty = true → v.state = .frozen) ∧ (v.freezeReq = true → v.state = .composing) ∧
    (v.advanceDue = true → v.state = .frozen) ∧
    (v.height = 0 → v.state = .empty ∧ v.carousel = .stopped)

/-- The window table is in canonical form, its windows are of the eight, 0..7 (spec/06, section 6.4),
and every one of them agrees. -/
def State.windowsAgree (s : State) : Prop :=
  Tab.wf resetWindow s.win = true ∧ (∀ e ∈ s.win, e.1 < 8) ∧ ∀ e ∈ s.win, e.2.agrees

/-- A field has an entry in the highlight expiry list exactly while its flash is not NONE, and no field
has two (R130). -/
def State.flashesListed (s : State) : Prop :=
  (s.pnt.highlights.map Highlight.index).Nodup ∧
    ∀ i, (s.paintState i).flash ≠ .none ↔ listed i s.pnt.highlights = true

/-- The paint queue holds no field twice (R116). -/
def State.queueOnce (s : State) : Prop := (s.pnt.queue.map PaintReq.index).Nodup

/-- At most one open intake entry for a key (R41). -/
def State.oneOpenEntry (s : State) : Prop :=
  ((s.inq.filter IntakeEntry.isOpen).map IntakeEntry.key).Nodup

/-- The plane, the paint states and every intake entry's items are in canonical form (R177;
assumption 25). -/
def State.canonical (s : State) : Prop :=
  Tab.wf resetCell s.cpl.plane = true ∧ Tab.wf initialPaint s.pnt.states = true ∧
    ∀ e ∈ s.inq, Tab.rising e.items = true

/-- Queues within their rooms and without repeats, and the plane canonical. -/
def State.buffersSound (s : State) : Prop :=
  s.withinRooms ∧ s.queueOnce ∧ s.oneOpenEntry ∧ s.canonical

/-- The kind of a content: price, percentage, size, time of day, condition code (R75). -/
def Content.kindCode : Content → Nat
  | .price _ _ => 0
  | .percentage _ _ => 1
  | .size _ => 2
  | .seconds _ => 3
  | .code _ => 4

/-- A content within the ranges of its kind (R75). -/
def Content.inRange : Content → Prop
  | .price m s => -999999999 ≤ m ∧ m ≤ 999999999 ∧ s ≤ 7
  | .percentage p d => -999999999 ≤ p ∧ p ≤ 999999999 ∧ d ≤ 4
  | .size n => n < 2 ^ 32
  | .seconds n => n < 86400
  | .code n => n < 16

/-- Every field index that the layout, the Painter or a hand-over of compose bursts names is one of the
512 (R96, R116). -/
def State.indicesKnown (s : State) : Prop :=
  (∀ e ∈ s.lay.fields, e.1 < 512) ∧ (∀ q ∈ s.pnt.queue, q.index < 512) ∧
    (∀ e ∈ s.pnt.states, e.1 < 512) ∧ (∀ h ∈ s.pnt.highlights, h.index < 512) ∧
    (∀ b, s.pnt.burst = some b → b.index < 512) ∧
    (∀ b ∈ s.cpl.bursts, ∀ l, b.after = .initial l → ∀ i ∈ l, i < 512) ∧
    ∀ g o l, s.cpl.granted = some g → g.by_ = .compose o (.initial l) → ∀ i ∈ l, i < 512

/-- What a quote entry is made of is short: labels of at most eight codes, values within their ranges
(R75, R110). -/
def State.quotesShort (s : State) : Prop :=
  (∀ e ∈ s.lay.prog, e.2.label.length ≤ 8) ∧
    ∀ e ∈ s.dir.records, ∀ x ∈ e.2.items, x.2.content.inRange

/-- The paint queue, the crawl text queue, the directory and the label store are within their rooms,
and the layout pointer and the program cursor within their ranges (R54, R96, R102, R116, R168, R171). -/
def State.storesSound (s : State) : Prop :=
  s.pnt.queue.length ≤ 512 ∧ s.crw.queue.length ≤ 1024 ∧ s.dir.records.length ≤ 256 ∧
    labelChars s.lay.labels ≤ 2048 ∧ s.lay.pointer ≤ 512 ∧ s.crw.cursor < 32 ∧ s.indicesKnown ∧
    s.quotesShort

/-- Windows that agree, with no page in two of them. -/
def State.windowsSound (s : State) : Prop := s.windowsAgree ∧ s.onePagePerWindow

/-- The records are exactly those of the keys the layout names, each with its reference count and its
mark count (R30, R54); the tables they are counted from are in canonical form. -/
def State.recordsMatch (s : State) : Prop :=
  Tab.rising s.lay.fields = true ∧ Tab.rising s.lay.prog = true ∧ Tab.rising s.ptb.marks = true ∧
    Tab.rising s.dir.records = true ∧
    (∀ e ∈ s.dir.records, e.1 = e.2.key.toNat ∧ e.2.refs = refCount s.lay e.2.key ∧
      e.2.marks = markCount s.ptb e.2.key) ∧
    ∀ k, (s.record? k).isSome = true ↔ 0 < refCount s.lay k

/-- A record's source is never its alternate (R39, R67). -/
def State.sourcesDiffer (s : State) : Prop :=
  ∀ e ∈ s.dir.records, ∀ n, e.2.source = some n → e.2.alternate ≠ some n

/-- Only a LIVE record has a stale deadline (R65). -/
def Record.settled (r : Record) : Prop := r.deadline ≠ none → r.state = .live

/-- Every record is settled. -/
def State.deadlinesLive (s : State) : Prop := ∀ e ∈ s.dir.records, e.2.settled

/-- A peer entry's miss count is at most 8, at most 7 while PRESENT, and 8 while SILENT (R24). -/
def Peer.counts (e : Peer) : Prop :=
  e.misses ≤ 8 ∧ (e.state = .present → e.misses ≤ 7) ∧ (e.state = .silent → e.misses = 8)

/-- Every peer entry's miss count fits its state. -/
def State.peersCount (s : State) : Prop := ∀ n, (s.peer n).counts

/-- The directory and the peer table are sound. -/
def State.directorySound (s : State) : Prop :=
  s.recordsMatch ∧ s.sourcesDiffer ∧ s.deadlinesLive ∧ s.peersCount

/-! ## Parcels that reach their block -/

/-- A parcel from another station reaches the block of its kind (R11, R19): RESETn high, the slot
received, the origin neither 0 nor the own number, and a targeted parcel sent to this station or to
all. -/
def State.hears (s : State) (rx : Rx) (targeted : Bool) : Prop :=
  s.resetHeld = false ∧ s.lnk.receives rx.slot = true ∧ rx.origin ≠ 0 ∧ rx.origin ≠ s.own ∧
    (targeted = true → forThis s rx = true)

/-- The state in which the block of its kind takes a parcel: the slot's parcel past, its home slot
heard, one good parcel counted (R19 step 4, R20). -/
def State.arrived (s : State) (rx : Rx) : State :=
  ((s.modLnk (advanceTo (parcelEnd rx.slot.toNat))).modLnk (hear rx)).countGood

/-- The layout origin lets a station act: it is none or that station (R32, R33). -/
def State.allows (s : State) (n : Station) : Prop := s.ptb.origin = none ∨ s.ptb.origin = some n

/-- The state with a station as its layout origin (R32). -/
def State.claimed (s : State) (n : Station) : State := s.modPtb fun p => { p with origin := some n }

/-! ## What a sweep start does to the other blocks -/

/-- What a sweep start of LNK has done to the crawl unit, the status unit, the windows' dwells and the
refresh requests (R70, R112, R148, R159, R164, R199). A dwell of 1 is marked as run out and lowered by
DWELL_EXPIRY (assumption 27). The requests are as R70 has them when no SENT deadline is reached, which
REFRESH_DEADLINE takes otherwise (assumption 26): the WAITING ones are offered in their order while the
transmit queue has room. -/
def State.sweepStarted (s t : State) : Prop :=
  t.crw =
      { s.crw with
        interval := s.lay.global.interval
        stepDue := (role s.straps).hasRow && decide (t.lnk.lap.toNat % s.lay.global.interval = 0)
        handoffDue := false } ∧
    t.sts = { s.sts with lapDue := decide (t.lnk.lap = 0) } ∧
    (s.windowsAgree → ∀ w, t.window w =
      if (s.window w).carousel = .running ∧ 0 < (s.window w).dwell ∧
          (s.window w).state ≠ .composing ∧ (s.window w).advanceDue = false then
        if (s.window w).dwell = 1 then { s.window w with dwellDue := true }
        else { s.window w with dwell := (s.window w).dwell - 1, dwellDue := false }
      else { s.window w with dwellDue := false }) ∧
    ((∀ e ∈ s.dir.refresh, ∀ due, e.state = .sent due → 2 ^ 31 ≤ (t.lnk.sweep - due).toNat) →
      t.lnk.txq =
        s.lnk.txq ++
          ((s.dir.refresh.filter fun e => e.state = .waiting).take (8 - s.lnk.txq.length)).map
            (fun e => refreshParcel s.own e.target e.key) ∧
      t.dir.refresh.map RefreshEntry.key = s.dir.refresh.map RefreshEntry.key ∧
      (s.lnk.txq.length + (s.dir.refresh.filter fun e => e.state = .waiting).length ≤ 8 →
        t.dir.refresh = s.dir.refresh.map fun e =>
          { e with
            state := if e.state = .waiting then .sent (t.lnk.sweep + 256) else e.state
            inPass := false }) ∧
      (8 ≤ s.lnk.txq.length →
        t.dir.refresh = s.dir.refresh.map fun e => { e with inPass := false }))

/-! ## Records and refresh requests -/

/-- The directory after a layout record that releases or binds some keys (R54 to R56): each of them has
a record while the layout names it, a new one VOID and without items, with its reference count; a key
no longer named has none, and its refresh request goes. Every other record and request stands. -/
def State.recordsFollow (s t : State) (keys : List Key) : Prop :=
  (∀ k ∈ keys, t.record? k =
    if refCount t.lay k = 0 then none
    else some
      { (s.record? k).getD
          { key := k, state := .void, source := none, alternate := none, lastSeq := none
            items := [], image := none, deadline := none, marks := markCount s.ptb k, refs := 0 }
        with refs := refCount t.lay k }) ∧
  (∀ k, k ∉ keys → t.record? k = s.record? k) ∧
  t.dir.refresh = s.dir.refresh.filter fun e =>
    !(decide (e.key ∈ keys) && decide (refCount t.lay e.key = 0))

/-- The refresh request list after an event that puts the record of a key in GAPPED with a source: a
request is made where the station is not a mute listener, none stands for the key and the list has
room (R69). -/
def State.refreshAsked (s : State) (k : Key) (source : Station) : List RefreshEntry :=
  if s.straps.sn = 0 ∨ (∃ e ∈ s.dir.refresh, e.key = k) ∨ 16 ≤ s.dir.refresh.length then s.dir.refresh
  else
    s.dir.refresh ++
      [{ key := k, target := source, second := false, state := .waiting, inPass := false }]

/-- What the switch of the records of a station that has gone does to the refresh requests (R67, R69,
R71). The requests of the records that it was the source of go, the others stand in their order. Behind
them stand new requests, one at most for each of those records that has come to GAPPED, to its new
source; every such record has one where the list had room for all of them. A mute listener makes none.
-/
def State.refreshSwitched (s t : State) (gone : Station) : Prop :=
  ∀ kept, kept = s.dir.refresh.filter
      (fun e => decide ((s.record? e.key).bind Record.source ≠ some gone)) →
    t.dir.refresh.take kept.length = kept ∧
    (∀ e ∈ t.dir.refresh.drop kept.length,
      (s.record? e.key).bind Record.source = some gone ∧
        (t.record? e.key).map Record.state = some .gapped ∧
        (t.record? e.key).bind Record.source = some e.target ∧ e.second = false ∧
        e.state = .waiting ∧ e.inPass = false) ∧
    ((t.dir.refresh.drop kept.length).map RefreshEntry.key).Nodup ∧
    (s.straps.sn = 0 → t.dir.refresh = kept) ∧
    (s.straps.sn ≠ 0 →
      s.dir.refresh.length + (s.dir.records.filter fun e => e.2.source = some gone).length ≤ 16 →
      ∀ k, (s.record? k).bind Record.source = some gone →
        (t.record? k).map Record.state = some .gapped → ∃ e ∈ t.dir.refresh, e.key = k)

/-- A request whose second deadline is reached in the pass of the present sweep start (R70). -/
def State.givesUp (s : State) (e : RefreshEntry) : Bool :=
  e.inPass && deadlineReached s.lnk.sweep e && e.second

/-- A request that the pass of the present sweep start offers to the transmit queue: WAITING, or SENT
with its first deadline reached (R70). -/
def State.offers (s : State) (e : RefreshEntry) : Bool :=
  e.inPass && (decide (e.state = .waiting) || (deadlineReached s.lnk.sweep e && !e.second))

/-! ## What an apply does -/

/-- The item codes that have no value after the end of an image: those in neither the entry nor the
image's seen set (R63). -/
def imageLost (e : IntakeEntry) (image : Option Image) : List Nat :=
  match image with
  | none => []
  | some i =>
    if e.imageEnd then
      (List.range 12).filter fun c =>
        decide (c ∉ i.seen) && decide (c ∉ e.items.map fun x => x.1)
    else []

/-- What the apply of entry e to record r does beside taking the entry off the queue (R57 to R65, R69,
R71 to R73, R117). `asked` says that the apply puts the record in GAPPED and asks for a refresh,
`counted` that it counts a sequence gap; `image` is the image in progress before the entry's items are
seen and `state` the record's state before an end of image. -/
def State.applied (s t : State) (e : IntakeEntry) (r : Record) (asked counted : Bool)
    (image : Option Image) (state : RecordState) : Prop :=
  (∃ r', t.record? e.key = some r' ∧
    (∀ i : Item, Tab.look i.code r'.items =
      match Tab.look i.code e.items with
      | some v => some (storeItem i v)
      | none => if i.code ∈ imageLost e image then none else Tab.look i.code r.items) ∧
    r'.state =
      (if e.imageEnd = true ∧ image.any (fun i => !i.gapped) = true then .live else state) ∧
    (r'.image = none ↔ image = none ∨ e.imageEnd = true) ∧
    (∀ i i', image = some i → r'.image = some i' → i'.gapped = i.gapped ∧
      ∀ c, c ∈ i'.seen ↔ c ∈ i.seen ∨ c ∈ e.items.map fun x => x.1) ∧
    r' = { r with
      lastSeq := some e.lastSeq, items := r'.items, state := r'.state, image := r'.image
      deadline :=
        if r'.state = .live ∧ s.lay.global.staleLimit ≠ 0 then
          some (s.lnk.sweep + BitVec.ofNat 32 s.lay.global.staleLimit)
        else none } ∧
    (∀ asks, asks = (if asked then s.refreshAsked e.key e.origin else s.dir.refresh) →
      t.dir.refresh =
        if r'.state = .gapped then asks else asks.filter fun x => decide (x.key ≠ e.key))) ∧
  (∀ k, k ≠ e.key → t.record? k = s.record? k) ∧
  (∀ i : Nat, (∃ q ∈ t.pnt.queue, q.index = i) ↔
    (∃ q ∈ s.pnt.queue, q.index = i) ∨
      ∃ f, Tab.look i s.lay.fields = some f ∧ f.key = e.key ∧
        follows ((e.items.map fun x => x.1) ++ imageLost e image) f.selector = true) ∧
  (∀ q ∈ t.pnt.queue, q ∈ s.pnt.queue ∨ q.kind = .ordinary) ∧
  (∀ q ∈ s.pnt.queue, q.kind ≠ .repaint → q ∈ t.pnt.queue) ∧
  (t.pnt.queue.take s.pnt.queue.length).map PaintReq.index = s.pnt.queue.map PaintReq.index ∧
  ((t.pnt.queue.drop s.pnt.queue.length).map PaintReq.index).Pairwise (· < ·) ∧
  (counted = false → t.sts = s.sts) ∧
  (counted = true → s.sts.counters.gaps ≠ BitVec.allOnes 32 →
    t.sts.counters.gaps = s.sts.counters.gaps + 1) ∧
  t = { s with
    inq := t.inq, dir := t.dir, pnt := { s.pnt with queue := t.pnt.queue }
    sts := { s.sts with counters := { s.sts.counters with gaps := t.sts.counters.gaps } } }

/-! ## What the end and the beginning of a page do, and a carousel's step -/

/-- The report that the initial paint of a field is done (R119, R143, R145): the first window whose
compose set holds the index loses it, and a set left empty ends the compose, FROZEN where a freeze is
asked for and SHOWING otherwise. Other windows stand. -/
def State.initialReported (s t : State) (i : Nat) : Prop :=
  (∀ w, (∀ set, (s.window w).compose = some (.fields set) → i ∉ set) → t.window w = s.window w) ∧
  ∀ w set, (s.window w).compose = some (.fields set) → i ∈ set →
    (∀ u, u < w → ∀ l, (s.window u).compose = some (.fields l) → i ∉ l) →
    (∀ u, u ≠ w → t.window u = s.window u) ∧
    t.window w =
      if ∀ j ∈ set, j = i then
        { s.window w with
          state := if (s.window w).freezeReq then .frozen else .showing
          dirty := false, freezeReq := false, compose := none }
      else { s.window w with compose := some (.fields (set.filter fun j => decide (j ≠ i))) }

/-- What the end of a window's page takes from the Painter and the port (R124, R133, R146, R179). The
highlight entries of the page's fields go with their flashes, the sticks stay; a painter burst made for
the page is withdrawn before its grant and marked as released after it. The granted burst of an
abandoned compose is written and starts nothing. -/
def State.pageLeft (s t : State) (w : Nat) : Prop :=
  ((s.window w).page = none → t.pnt = { s.pnt with queue := t.pnt.queue }) ∧
  (∀ p, (s.window w).page = some p →
    t.pnt.highlights = s.pnt.highlights.filter (fun h => !onPage s.lay.fields p h.index) ∧
    (∀ i, t.paintState i =
      if onPage s.lay.fields p i = true ∧ listed i s.pnt.highlights = true then
        { s.paintState i with flash := .none }
      else s.paintState i) ∧
    t.pnt.burst = s.pnt.burst.bind fun b =>
      if b.page ≠ p then some b else if b.stage = .waiting then none
      else some { b with released := true }) ∧
  t.cpl.granted = s.cpl.granted.map fun g =>
    match g.by_ with
    | .compose (.window v) _ =>
      if v = w ∧ (s.window w).state = .composing then
        { g with by_ := .compose (.window v) .nothing }
      else g
    | .compose .layout _ => g
    | .crawl => g
    | .painter => g
    | .status => g

/-- The compose burst list when a window's page has ended: without the window's own bursts where a
compose is abandoned, whole where a page is released (R146, R179). -/
def State.burstsLeft (s : State) (w : Nat) : List Burst :=
  if (s.window w).state = .composing then
    s.cpl.bursts.filter fun b => decide (b.owner ≠ .window w)
  else s.cpl.bursts

/-- A compose of page p has begun in window w behind the bursts l, with the paint queue q before it
(R141, R142, R179). With room its bursts wait and the last of them brings the FIELDS phase; a list that
fills before the last of them begins that phase at once (assumption 36). -/
def State.composeHanded (t : State) (w p : Nat) (l : List Burst) (q : List PaintReq) : Prop :=
  (t.window w).page = some p ∧ (t.window w).dirty = false ∧ (t.window w).freezeReq = false ∧
  (t.window w).advanceDue = false ∧
  (l.length + (composeBursts t w p).length ≤ 1024 →
    t.cpl.bursts = l ++ closeLast (.fieldsPhase w) (composeBursts t w p) ∧
      (t.window w).state = .composing ∧ (t.window w).compose = some .bursts ∧ t.pnt.queue = q) ∧
  (1024 < l.length + (composeBursts t w p).length →
    t.cpl.bursts = l ++ (composeBursts t w p).take (1024 - l.length) ∧
    (∀ set, set = visibleFields t.lay.fields p (t.window w).height →
      (∀ i ∈ set, ∃ r ∈ t.pnt.queue, r.index = i ∧ r.kind = .initial) ∧
      (∀ r ∈ t.pnt.queue, r ∈ q ∨ r.index ∈ set ∧ r.kind = .initial) ∧
      (t.window w).state = (if set = [] then .showing else .composing) ∧
      (t.window w).compose = if set = [] then none else some (.fields set)))

/-- The page of window w has ended and a compose of page p begun in it (R141, R146). -/
def State.composeBegun (s t : State) (w p : Nat) : Prop :=
  s.pageLeft t w ∧ t.composeHanded w p (s.burstsLeft w) s.pnt.queue ∧
    t.cpl = { s.cpl with bursts := t.cpl.bursts, granted := t.cpl.granted }

/-- Step selection of a window's carousel from an index, in a program with steps (R147; assumption 30).
The steps are examined in turn, past the last one from step 0 again. Each whose page another window
shows is skipped with one report, and the first other one is taken with its whole dwell, composed unless
the window shows its page. With all steps skipped the window keeps its page and state, at the first step
examined. -/
def State.selected (s t : State) (w start : Nat) : Prop :=
  ∀ first, first = (if start < s.programLength w then start else 0) →
    (∀ n q, n < s.programLength w →
      (∀ m, m < n → ∃ p x, (s.stepAt w ((first + m) % s.programLength w)).page = some p ∧ x ≠ w ∧
        s.shows x p) →
      (s.stepAt w ((first + n) % s.programLength w)).page = some q →
      (∀ x, x ≠ w → ¬ s.shows x q) →
      (t.window w).page = some q ∧ (t.window w).step = (first + n) % s.programLength w ∧
        (t.window w).dwell = 16 * (s.stepAt w ((first + n) % s.programLength w)).dwell ∧
        (t.window w).carousel = (s.window w).carousel ∧ (t.window w).advanceDue = false ∧
        (t.window w).dwellDue = false ∧
        ((s.window w).page = some q →
          (t.window w).state = (s.window w).state ∧ t.pnt = s.pnt ∧ t.cpl = s.cpl) ∧
        ((s.window w).page ≠ some q → s.composeBegun t w q) ∧
        t.sts.tallies.skips.toNat = min 65535 (s.sts.tallies.skips.toNat + n)) ∧
    ((∀ m, m < s.programLength w → ∃ p x, (s.stepAt w m).page = some p ∧ x ≠ w ∧ s.shows x p) →
      t.window w =
          { s.window w with
            step := first, dwell := 16 * (s.stepAt w first).dwell, advanceDue := false
            dwellDue := false } ∧
        t.sts.tallies.skips.toNat =
          min 65535 (s.sts.tallies.skips.toNat + s.programLength w) ∧
        t.pnt = s.pnt ∧ t.cpl = s.cpl) ∧
    (∀ x, x ≠ w → t.window x = s.window x) ∧
    (t.window w).top = (s.window w).top ∧ (t.window w).height = (s.window w).height ∧
    (t.window w).background = (s.window w).background ∧
    (t.window w).override = (s.window w).override ∧
    t = { s with
      pnt := t.pnt, win := t.win, cpl := t.cpl
      sts := { s.sts with tallies := { s.sts.tallies with skips := t.sts.tallies.skips } } }

/-- An advance of a window's carousel (R149): a program of no steps stops it at step 0, its remaining
dwell standing (assumption 39); else a step is selected from the one after the present. -/
def State.advanced (s t : State) (w : Nat) : Prop :=
  (s.programLength w = 0 →
    t.window w =
        { s.window w with carousel := .stopped, step := 0, advanceDue := false, dwellDue := false } ∧
      (∀ x, x ≠ w → t.window x = s.window x) ∧ t = { s with win := t.win }) ∧
  (0 < s.programLength w → s.selected t w ((s.window w).step + 1))

/-! ## Refusals -/

/-- STS after a refusal: the last refusal and the refusals counter, whose value is given, and no more
(R203). -/
def Sts.refused (t : Sts) (kind code : Nibble) (reason : Reason) (origin : Station)
    (count : BitVec 32) : Sts :=
  { t with
    counters := { t.counters with refusals := count }
    lastRefusal := some { kind := kind, code := code, reason := reason, origin := origin } }

/-- The tests of the records and commands that their block refuses, beside those of FIELD and BUSY: with
RANGE an operand out of its range, with FULL a record for which there is no room (R94, R101, R102, R104,
R106 to R110, R134, R137, R150 to R154). -/
inductive State.Refuses (s : State) : Instr → Reason → Prop
  | labelRun (rx : Rx) (r : LabelRecord) : 255 < r.run.toNat → s.Refuses (.label rx r) .range
  | labelPlace (rx : Rx) (r : LabelRecord) :
      r.length ≠ 0 → (1 < r.charset.toNat ∨ cols s.straps ≤ r.column.toNat) →
      s.Refuses (.label rx r) .range
  | labelRoom (rx : Rx) (r : LabelRecord) :
      r.run.toNat ≤ 255 → r.length ≠ 0 → r.charset.toNat ≤ 1 → r.column.toNat < cols s.straps →
      r.chars.length = 20 →
      2048 < labelChars (Tab.erase r.run.toNat s.lay.labels) +
        min (min r.length.toNat 20) (cols s.straps - r.column.toNat) →
      s.Refuses (.label rx r) .full
  | windowIndex (rx : Rx) (r : WindowRecord) : 7 < r.window.toNat → s.Refuses (.window rx r) .range
  | windowBand (rx : Rx) (r : WindowRecord) :
      r.height ≠ 0 →
      (freeRows s.straps < r.top.toNat + r.height.toNat ∨ (31 < r.page.toNat ∧ r.page ≠ 255) ∨
        ∃ e ∈ s.win, e.1 ≠ r.window.toNat ∧ r.top.toNat < e.2.top + e.2.height ∧
          e.2.top < r.top.toNat + r.height.toNat) →
      s.Refuses (.window rx r) .range
  | policy (rx : Rx) (r : PolicyRecord) :
      (7 < r.policy.toNat ∨ 4 < r.mode.toNat) → s.Refuses (.policy rx r) .range
  | palette (rx : Rx) (r : PaletteRecord) : 15 < r.entry.toNat → s.Refuses (.palette rx r) .range
  | condLabel (rx : Rx) (r : CondLabelRecord) : 15 < r.code.toNat → s.Refuses (.condlabel rx r) .range
  | carousel (rx : Rx) (r : CarouselRecord) :
      (7 < r.window.toNat ∨ 15 < r.step.toNat ∨ (31 < r.page.toNat ∧ r.page ≠ 255)) →
      s.Refuses (.carousel rx r) .range
  | progEntry (rx : Rx) (r : CrawlProgRecord) :
      31 < r.entry.toNat → s.Refuses (.crawlprog rx r) .range
  | progRoom (rx : Rx) (r : CrawlProgRecord) :
      r.entry.toNat ≤ 31 →
      256 < (namedKeys { s.lay with
        prog := Tab.put defaultProg r.entry.toNat
          { key := if r.keyPresent then some r.key else none, label := r.chars.take 8 }
          s.lay.prog }).length →
      s.Refuses (.crawlprog rx r) .full
  | showPage (rx : Rx) (window page : Byte) :
      (7 < window.toNat ∨ 31 < page.toNat ∨ (s.window window.toNat).height = 0) →
      s.Refuses (.showPage rx window page) .range
  | release (rx : Rx) (window : Byte) : 7 < window.toNat → s.Refuses (.release rx window) .range
  | run (rx : Rx) (window : Byte) :
      (7 < window.toNat ∨ (s.window window.toNat).height = 0) → s.Refuses (.run rx window) .range
  | halt (rx : Rx) (window : Byte) : 7 < window.toNat → s.Refuses (.halt rx window) .range
  | freeze (rx : Rx) (window : Byte) : 7 < window.toNat → s.Refuses (.freeze rx window) .range
  | thaw (rx : Rx) (window : Byte) : 7 < window.toNat → s.Refuses (.thaw rx window) .range
  | override (rx : Rx) (window mode : Byte) :
      (7 < window.toNat ∨ 2 < mode.toNat) → s.Refuses (.override rx window mode) .range

end Sys2Proof.Machine

namespace Sys2Proof

open Machine

/-- The commands that the layout-origin checks pass or refuse, with the parcel, its kind (2 COMMAND, 7
LAYOUT) and its code or record kind (R32, R33). -/
def Instr.checked : Instr → Option (Rx × Nibble × Nibble)
  | .resetnAssert => none
  | .resetnRelease _ _ => none
  | .listenPeriodExpiry => none
  | .sweepMarkRecognised _ => none
  | .markClassified _ => none
  | .stuckLine => none
  | .sweepTimerExpiry => none
  | .freeRunExpiry => none
  | .stuckTimerExpiry => none
  | .lapListenEnd => none
  | .homeSlotTransmit => none
  | .homeSlotClash => none
  | .openSlotAttempt _ => none
  | .openSlotOutcome _ => none
  | .homeSlotReport _ => none
  | .crcError _ => none
  | .malformedParcel _ => none
  | .goodParcelIgnored _ _ => none
  | .presence _ _ => none
  | .mark _ _ _ => none
  | .tick _ _ => none
  | .intakeTake => none
  | .commandBadCode rx code => some (rx, 2, badCommandCode code)
  | .showPage rx _ _ => some (rx, 2, 1)
  | .release rx _ => some (rx, 2, 2)
  | .run rx _ => some (rx, 2, 3)
  | .halt rx _ => some (rx, 2, 4)
  | .freeze rx _ => some (rx, 2, 5)
  | .thaw rx _ => some (rx, 2, 6)
  | .override rx _ _ => some (rx, 2, 7)
  | .crawlFlush rx => some (rx, 2, 8)
  | .counterClear rx => some (rx, 2, 9)
  | .layoutClear rx => some (rx, 2, 10)
  | .layoutBadKind rx kind => some (rx, 7, badRecordKind kind)
  | .field rx _ => some (rx, 7, 1)
  | .label rx _ => some (rx, 7, 2)
  | .window rx _ => some (rx, 7, 3)
  | .policy rx _ => some (rx, 7, 4)
  | .palette rx _ => some (rx, 7, 5)
  | .condlabel rx _ => some (rx, 7, 6)
  | .carousel rx _ => some (rx, 7, 7)
  | .crawlprog rx _ => some (rx, 7, 8)
  | .global rx _ => some (rx, 7, 9)
  | .handoff _ _ => none
  | .crawltext _ _ => none
  | .crawlStep => none
  | .staleExpiry => none
  | .refreshDeadline => none
  | .pendingRelease => none
  | .highlightExpiry => none
  | .dwellExpiry _ => none
  | .lapStart => none
  | .paintService => none
  | .paintCommit => none
  | .portGrant => none
  | .transferComplete => none
  | .frameStart => none
  | .rowFetch => none
  | .stuckLineRisingEdge _ => none
  | .unrecognisedFallingEdge _ => none

end Sys2Proof
end

