-- ==== Sys2Proof/WellFormed.lean ====
section
/-! DEFINITION. Well-formed commands: operands that the event they stand for can have. Bit and slot
numbers lie where the event can fall, a received parcel has a slot and an origin, and every list has
the length of its place in the parcel (R22). `exec` gives a meaning to the others all the same. -/

namespace Sys2Proof

/-- No bit time is later than the end of the LISTEN period (R5). -/
def timeBound : Nat := 81920

/-- A parcel past R19 step 2 arrived in a slot 1..63 and has an origin 1..15. -/
def rxOk (rx : Rx) : Bool := decide (rx.slot ≠ 0) && decide (rx.origin ≠ 0)

/-- A command is well formed. -/
def Instr.wellFormed : Instr → Bool
  | .resetnAssert => true
  | .resetnRelease _ _ => true
  | .listenPeriodExpiry => true
  | .sweepMarkRecognised edge => decide (edge ≤ timeBound)
  | .markClassified low => decide (8 ≤ low) && decide (low ≤ 320)
  | .stuckLine => true
  | .sweepTimerExpiry => true
  | .freeRunExpiry => true
  | .stuckTimerExpiry => true
  | .lapListenEnd => true
  | .homeSlotTransmit => true
  | .homeSlotClash => true
  | .openSlotAttempt slot => decide (16 ≤ slot.toNat)
  | .openSlotOutcome _ => true
  | .homeSlotReport station => decide (station ≠ 0)
  | .crcError slot => decide (slot ≠ 0)
  | .malformedParcel slot => decide (slot ≠ 0)
  | .goodParcelIgnored rx _ => rxOk rx
  | .presence rx _ => rxOk rx
  | .mark rx _ _ => rxOk rx
  | .tick rx body => rxOk rx && decide (body.items.length = 4)
  | .intakeTake => true
  | .commandBadCode rx _ => rxOk rx
  | .showPage rx _ _ => rxOk rx
  | .release rx _ => rxOk rx
  | .run rx _ => rxOk rx
  | .halt rx _ => rxOk rx
  | .freeze rx _ => rxOk rx
  | .thaw rx _ => rxOk rx
  | .override rx _ _ => rxOk rx
  | .crawlFlush rx => rxOk rx
  | .counterClear rx => rxOk rx
  | .layoutClear rx => rxOk rx
  | .layoutBadKind rx _ => rxOk rx
  | .field rx _ => rxOk rx
  | .label rx body => rxOk rx && decide (body.chars.length = 20)
  | .window rx _ => rxOk rx
  | .policy rx _ => rxOk rx
  | .palette rx _ => rxOk rx
  | .condlabel rx body => rxOk rx && decide (body.chars.length = 6)
  | .carousel rx _ => rxOk rx
  | .crawlprog rx body => rxOk rx && decide (body.chars.length = 8)
  | .global rx _ => rxOk rx
  | .handoff rx _ => rxOk rx
  | .crawltext rx body => rxOk rx && decide (body.chars.length = 24)
  | .crawlStep => true
  | .staleExpiry => true
  | .refreshDeadline => true
  | .pendingRelease => true
  | .highlightExpiry => true
  | .dwellExpiry _ => true
  | .lapStart => true
  | .paintService => true
  | .paintCommit => true
  | .portGrant => true
  | .transferComplete => true
  | .frameStart => true
  | .rowFetch => true
  | .stuckLineRisingEdge edge => decide (edge ≤ timeBound)
  | .unrecognisedFallingEdge edge => decide (edge ≤ timeBound)

end Sys2Proof
end

