-- ==== Sys2Proof/Certificates/Slice0/Obligations.lean ====
section
/-! DEFINITION. The statements about the ZQ480 that the provers prove. `s.hears rx targeted` says that a
parcel of another station reaches its block, and `s.arrived rx` is the state in which the block takes
it (Sys2Proof/Safety.lean); `ParcelArrives` says what that state is. -/

open Sys2Proof Sys2Proof.Machine

/-! ## The block as a whole -/

/-- A step takes the command at the front of the queue and runs it on the queue's rest. -/
def Obligations.StepTakesFront : Prop :=
  ∀ (c : Instr) (s : State) (rest : List Instr), s.pending = c :: rest →
    step s = exec c { s with pending := rest }

/-- No command changes the queue of waiting commands, and none ends in a fault or a refusal. -/
def Obligations.CommandsComplete : Prop :=
  ∀ (c : Instr) (s : State), ∃ t, exec c s = .next t ∧ t.pending = s.pending

/-- While RESETn is held low the part drives neither line (R5); that nothing else of it changes is the
model's reading (assumption 2). RESETn release samples the straps, puts LNK in LISTEN and leaves every
block at its reset values (R5, R23, R31, R35, R41, R54, R69, R113, R115, R116, R130, R139, R158, R163,
R168, R171, R177, R179, R180, R197 to R200, R203); the first frame's phase, the row due first and the
crawl interval in force are the model's (assumptions 14 and 32). -/
def Obligations.ResetLeavesValues : Prop :=
  (∀ s : State, ∃ t, exec .resetnAssert s = .next t ∧ t.resetHeld = true ∧ t.lnk.dls = none ∧
    t.lnk.dld = none ∧ t = { s with resetHeld := true, lnk := t.lnk } ∧
    t.lnk = { s.lnk with dls := none, dld := none }) ∧
  (∀ (straps : Straps) (low : Bool) (s : State), s.resetHeld = true →
    ∃ t, exec (.resetnRelease straps low) s = .next t ∧ t.resetHeld = false ∧ t.straps = straps ∧
      t.lnk.sync = .listen ∧ t.lnk.sweep = 0 ∧ t.lnk.lap = 0 ∧ t.lnk.slotCount = none ∧
      t.lnk.lapListen = true ∧ t.lnk.longSeen = false ∧ t.lnk.txq = [] ∧ t.lnk.dls = none ∧
      t.lnk.dld = none ∧
      (∀ n, t.peer n = { state := .absent, kind := .unknown, misses := 0 }) ∧ t.ptb.marks = [] ∧
      t.ptb.origin = none ∧ t.inq = [] ∧ t.dir = { records := [], refresh := [] } ∧
      t.lay.fields = [] ∧ t.lay.labels = [] ∧ t.lay.pointer = 0 ∧
      (∀ i, t.policy i =
        { mode := .flash, hold := 512, upFg := 0, upBg := 10, downFg := 15, downBg := 9,
          upStick := 10, downStick := 9, touch := false, touchFg := 0, touchBg := 11,
          blinkFlash := false }) ∧
      [t.rgb 0, t.rgb 1, t.rgb 2, t.rgb 3, t.rgb 4, t.rgb 5, t.rgb 6, t.rgb 7] =
        [⟨0, 0, 0⟩, ⟨0, 0, 0x80⟩, ⟨0, 0x80, 0⟩, ⟨0, 0x80, 0x80⟩, ⟨0x80, 0, 0⟩, ⟨0x80, 0, 0x80⟩,
          ⟨0x80, 0x80, 0⟩, ⟨0xC0, 0xC0, 0xC0⟩] ∧
      [t.rgb 8, t.rgb 9, t.rgb 10, t.rgb 11, t.rgb 12, t.rgb 13, t.rgb 14, t.rgb 15] =
        [⟨0x80, 0x80, 0x80⟩, ⟨0xFF, 0, 0⟩, ⟨0, 0xFF, 0⟩, ⟨0xFF, 0xFF, 0⟩, ⟨0, 0, 0xFF⟩,
          ⟨0xFF, 0, 0xFF⟩, ⟨0, 0xFF, 0xFF⟩, ⟨0xFF, 0xFF, 0xFF⟩] ∧
      (∀ c, condLabel t.lay.condLabels c = List.replicate 6 0x20) ∧
      (∀ w i, t.stepAt w i = { page := none, dwell := 1 }) ∧
      (∀ i, t.progEntry i = { key := none, label := List.replicate 8 0x20 }) ∧
      t.lay.global =
        { staleLimit := 0, staleFg := 8, gapFg := 11, interval := 4, crawlFg := 15, crawlBg := 0,
          blinkCode := 5, blinkDuty := 8, sync := .both, clash := .both, silent := .both,
          orphan := .both, drop := .both, underrun := .both, foreign := .both } ∧
      t.pnt.queue = [] ∧ t.pnt.highlights = [] ∧ t.pnt.burst = none ∧
      (∀ i, t.paintState i =
        { lastValue := none, flash := .none, stick := .none, lastPaint := none, pending := none,
          textKind := .none }) ∧
      (∀ w, t.windowExists w = false ∧ (t.window w).state = .empty ∧ (t.window w).page = none ∧
        (t.window w).freezeReq = false ∧ (t.window w).override = .none ∧
        (t.window w).compose = none ∧ (t.window w).carousel = .stopped ∧ (t.window w).step = 0 ∧
        (t.window w).dwell = 0 ∧ (t.window w).advanceDue = false) ∧
      t.crw.hold = none ∧ t.crw.queue = [] ∧ t.crw.cursor = 0 ∧ t.crw.interval = 4 ∧
      t.crw.stepDue = false ∧ t.crw.handoffDue = false ∧
      t.crw.row.length = (if (role straps).hasRow then cols straps else 0) ∧
      (∀ c ∈ t.crw.row, c = { glyph := 0x20, fg := 15, bg := 0, blink := false }) ∧
      (∀ row column, t.cell row column =
        { glyph := 0x20, fg := 7, bg := 0, blink := false, underline := false, field := none }) ∧
      t.cpl.bursts = [] ∧ t.cpl.granted = none ∧ t.cpl.crawlReq = false ∧ t.cpl.statusReq = false ∧
      t.cpl.fetchReq = none ∧ t.cpl.turn = .compose ∧ t.cpl.blinkOn = true ∧ t.cpl.nextRow = 0 ∧
      t.sts =
        { counters := zeroCounters 32, tallies := zeroTallies,
          report :=
            { counters := zeroCounters 16, tallies := zeroTallies,
              alarms :=
                { sync := false, clash := false, silent := false, orphan := false, drop := false,
                  underrun := false, foreign := false },
              silent := [], orphaned := 0, stale := 0, gapped := 0 },
          clashLatch := false, foreignLatch := false, syncSeen := false, lastRefusal := none,
          text := [], lapDue := false } ∧
      t.pending = s.pending)

/-- The model's reset state meets every invariant stated below. The strap levels of that state are
the model's choice (assumption 1). -/
def Obligations.ResetIsSound : Prop :=
  State.reset.buffersSound ∧ State.reset.storesSound ∧ State.reset.windowsSound ∧
    State.reset.flashesListed ∧ State.reset.directorySound

/-! ## Desk Link interface -/

/-- R1, R2, R12: a recognised mark restarts the timer and the slot count at its falling edge, cuts
the slot in progress (a driven parcel dropped, its home slot not heard, the queue kept), begins a
sweep in none of whose slots a parcel has been begun, and changes nothing outside LNK. The bit time of the falling edge moves the model's clock (assumption 4). -/
def Obligations.MarkRestartsTimer : Prop :=
  ∀ (edge : Nat) (s : State), s.resetHeld = false → s.lnk.markInProgress = false →
    (s.lnk.sync ≠ .stuck ∨ (advanceTo edge s.lnk).lineFree = true) →
    ∃ t, exec (.sweepMarkRecognised edge) s = .next t ∧ t = { s with lnk := t.lnk } ∧
      t.lnk.timer = 0 ∧ t.lnk.slotCount = some 0 ∧ t.lnk.markInProgress = true ∧ t.lnk.dld = none ∧
      t.lnk.begunSlot = none ∧ t.lnk.freeRunDue = false ∧ t.lnk.txq = s.lnk.txq ∧
      t.lnk.sync = s.lnk.sync ∧
      t.lnk.sweep = s.lnk.sweep ∧ t.lnk.lap = s.lnk.lap ∧ t.lnk.lapListen = s.lnk.lapListen ∧
      ∀ n, n ∈ t.lnk.heard ↔ n ∈ s.lnk.heard ∧ n ≠ max edge s.lnk.timer / 320

/-- R2, R4, R5, R10: a mark of 8 to 320 bit times is classified short up to 32 and long above, brings
the station to FOLLOW and raises a sweep start: the sweep number advances, the lap index advances or
becomes 0, and the sweep start reaches CRW, STS, the dwells and the refresh requests
(`s.sweepStarted t` in Sys2Proof/Safety.lean says how, R70, R112, R148, R159, R199). That the crawl
step, the lap start, a dwell's last 1 and a reached refresh deadline are left for rows of their own is
the model's reading (assumptions 5, 14, 26 and 27). -/
def Obligations.ClassifiedMarkStartsSweep : Prop :=
  ∀ (low : Nat) (s : State), s.resetHeld = false → s.lnk.markInProgress = true → 8 ≤ low → low ≤ 320 →
    ∃ t, exec (.markClassified low) s = .next t ∧ t.lnk.sync = .follow ∧
      t.lnk.markInProgress = false ∧ t.lnk.sweep = s.lnk.sweep + 1 ∧
      t.lnk.lap = (if low ≤ 32 then s.lnk.lap + 1 else 0) ∧
      t.lnk.longSeen = (s.lnk.longSeen || decide (32 < low)) ∧ t.lnk.lapListen = s.lnk.lapListen ∧
      s.sweepStarted t ∧
      (s.windowsAgree → ∀ w, (t.window w).page = (s.window w).page ∧
        (t.window w).dwell =
          if dwellCounts (s.window w) = true ∧ (s.window w).dwell ≠ 1 then (s.window w).dwell - 1
          else (s.window w).dwell) ∧
      t.straps = s.straps ∧ t.ptb = s.ptb ∧ t.inq = s.inq ∧ t.dir.records = s.dir.records ∧
      t.lay = s.lay ∧ t.pnt = s.pnt ∧ t.cpl = s.cpl

/-- R5, R9: a stuck line brings the station to STUCK, releases DLD, raises SYNC and raises no sweep
start; the queue keeps its parcels. A line low since RESETn release also restarts the timer. R10: when
the mark that would have ended STUCK is stuck again, the station stays in STUCK and no sweep start is
raised. SYNC is among the alarms as they stand then in both cases; the SYNC-seen flag is set at an entry
into STUCK alone (R200). The bit times are those of the model's clock (assumption 4). -/
def Obligations.StuckLineEntersStuck : Prop :=
  ∀ s : State, s.resetHeld = false →
    (s.lnk.markInProgress = true ∨ (s.lnk.sync = .listen ∧ s.lnk.lowSinceRelease = true)) →
    ∃ t, exec .stuckLine s = .next t ∧ t = { s with lnk := t.lnk, sts := t.sts } ∧
      t.lnk.sync = .stuck ∧ t.lnk.dld = none ∧ t.lnk.dls = none ∧ t.lnk.markInProgress = false ∧
      t.lnk.sweep = s.lnk.sweep ∧ t.lnk.lap = s.lnk.lap ∧ t.lnk.txq = s.lnk.txq ∧
      t.lnk.lapListen = s.lnk.lapListen ∧ (lapAlarms t).sync = true ∧
      (s.lnk.sync ≠ .stuck → t.sts = { s.sts with syncSeen := true }) ∧
      (s.lnk.sync = .stuck → t.sts = s.sts) ∧
      (s.lnk.markInProgress = false → t.lnk.timer = 0 ∧ t.lnk.slotCount = some 0) ∧
      (s.lnk.markInProgress = true → t.lnk.timer = max 320 s.lnk.timer)

/-- R3, R5: at a timer expiry in FOLLOW, and at the end of the LISTEN period, a station that is not
mute drives a mark (long only when its lap index is 1023 and lap-listen has ended), and a mute
listener restarts its timer; no sweep start is raised. The bit times and the flag of a mute
listener's slot 0 are the model's clock (assumption 4). -/
def Obligations.TimerExpiryDrivesMark : Prop :=
  (∀ s : State, s.resetHeld = false → s.lnk.sync = .follow → s.lnk.slotRunning = true →
    s.lnk.markInProgress = false → s.lnk.freeRunDue = false → s.lnk.dls = none →
    ∃ t, exec .sweepTimerExpiry s = .next t ∧ t = { s with lnk := t.lnk } ∧
      t.lnk.sweep = s.lnk.sweep ∧ t.lnk.lap = s.lnk.lap ∧ t.lnk.sync = .follow ∧
      t.lnk.txq = s.lnk.txq ∧
      (s.straps.sn ≠ 0 →
        t.lnk.dls = some (if s.lnk.lap = 1023 ∧ s.lnk.lapListen = false then .long else .short) ∧
          t.lnk.timer = max 20480 s.lnk.timer) ∧
      (s.straps.sn = 0 → t.lnk.dls = none ∧ t.lnk.timer = 0 ∧ t.lnk.freeRunDue = true)) ∧
  (∀ s : State, s.resetHeld = false → s.lnk.sync = .listen → s.lnk.markInProgress = false →
    s.lnk.lowSinceRelease = false → s.lnk.lapListen = true → s.lnk.dls = none →
    ∃ t, exec .listenPeriodExpiry s = .next t ∧ t = { s with lnk := t.lnk } ∧ t.lnk.sync = .follow ∧
      t.lnk.sweep = s.lnk.sweep ∧ t.lnk.lap = s.lnk.lap ∧
      (s.straps.sn ≠ 0 → t.lnk.dls = some .short) ∧
      (s.straps.sn = 0 → t.lnk.dls = none ∧ t.lnk.slotCount = some 0 ∧ t.lnk.freeRunDue = true))

/-- R3, R4, R10: a free-run expiry of a mute listener advances the sweep number and the lap index by
1; a timer expiry in STUCK does so and restarts the timer unless the line has been free and the
station is not mute, when it drives a mark instead. The sweep start reaches CRW, STS, the dwells and
the refresh requests (`s.sweepStarted t` in Sys2Proof/Safety.lean; assumptions 5, 14, 26 and 27). The
bit times are those of the model's clock (assumption 4). -/
def Obligations.FreeRunStartsSweep : Prop :=
  (∀ s : State, s.resetHeld = false → s.lnk.freeRunDue = true → s.lnk.sync = .follow →
    ∃ t, exec .freeRunExpiry s = .next t ∧ t.lnk.freeRunDue = false ∧
      t.lnk.sweep = s.lnk.sweep + 1 ∧ t.lnk.lap = s.lnk.lap + 1 ∧ t.lnk.sync = .follow ∧
      t.lnk.timer = max 320 s.lnk.timer ∧ s.sweepStarted t ∧ t.ptb = s.ptb ∧ t.lay = s.lay ∧
      t.pnt = s.pnt ∧ t.cpl = s.cpl ∧ t.dir.records = s.dir.records) ∧
  (∀ s : State, s.resetHeld = false → s.lnk.sync = .stuck → s.lnk.markInProgress = false →
    s.lnk.dls = none →
    ∃ t, exec .stuckTimerExpiry s = .next t ∧ t.lnk.sync = .stuck ∧
      (if (advanceTo 20480 s.lnk).lineFree = true ∧ s.straps.sn ≠ 0 then
        t = { s with lnk := t.lnk } ∧ t.lnk.sweep = s.lnk.sweep ∧ t.lnk.lap = s.lnk.lap ∧
          t.lnk.dls = some (if s.lnk.lap = 1023 ∧ s.lnk.lapListen = false then .long else .short)
      else
        t.lnk.sweep = s.lnk.sweep + 1 ∧ t.lnk.lap = s.lnk.lap + 1 ∧ t.lnk.timer = 0 ∧
          t.lnk.slotCount = some 0 ∧ t.lnk.dls = none ∧ s.sweepStarted t ∧ t.pnt = s.pnt ∧
          t.cpl = s.cpl))

/-- R2, R7, R10: a rising edge of a line that no mark holds starts the measurement of free time at that
edge, and ends a line low since RESETn release (R5); a falling edge in STUCK that is not recognised as
a mark ends the free time, also that of a free line (assumption 35). Beside that the edges move the
clock alone: the timer, and with it the end of a home-slot parcel (assumptions 4 and 24). Lap-listen
ends after a long mark or at the 2048th sweep start. -/
def Obligations.LineEdgesAndLapListen : Prop :=
  (∀ (edge : Nat) (s : State), s.resetHeld = false → s.lnk.markInProgress = false →
    ∃ t, exec (.stuckLineRisingEdge edge) s = .next t ∧ t = { s with lnk := t.lnk } ∧
      t.lnk =
        { s.lnk with
          freeTime := some 0, lowSinceRelease := false, timer := max edge s.lnk.timer,
          dld := (advanceTo edge s.lnk).dld, sentSlot := (advanceTo edge s.lnk).sentSlot }) ∧
  (∀ (edge : Nat) (s : State), s.resetHeld = false → s.lnk.sync = .stuck →
    s.lnk.markInProgress = false →
    ∃ t, exec (.unrecognisedFallingEdge edge) s = .next t ∧ t = { s with lnk := t.lnk } ∧
      t.lnk =
        { s.lnk with
          freeTime := none, timer := max edge s.lnk.timer,
          dld := (advanceTo edge s.lnk).dld, sentSlot := (advanceTo edge s.lnk).sentSlot }) ∧
  (∀ s : State, s.resetHeld = false → (s.lnk.longSeen = true ∨ 2048 ≤ s.lnk.sweep.toNat) →
    ∃ t, exec .lapListenEnd s = .next t ∧ t = { s with lnk := { s.lnk with lapListen := false } })

/-- R13, R14: the home-slot parcel of a station in FOLLOW is the HANDOFF of the next step's tag and
the leftmost crawl cell when a hand-off is due, else a PRESENCE; a mismatch in it releases DLD and
raises CLASH, and the parcel is not sent again: the slot stays noted as begun, and no parcel is begun in
it a second time. A station in LISTEN or STUCK, or a mute listener, sends nothing in its home slot. That
none is begun while a mark is in progress is the model's choice (assumption 44); the bit times are those
of the model's clock (assumption 4). -/
def Obligations.HomeSlotSends : Prop :=
  (∀ s : State, s.resetHeld = false → s.lnk.sync = .follow → s.straps.sn ≠ 0 →
    s.lnk.slotRunning = true → s.lnk.markInProgress = false →
    s.lnk.timer ≤ 320 * s.own.toNat → s.lnk.dld = none → s.lnk.begunSlot ≠ some s.own.toNat →
    ∃ t, exec .homeSlotTransmit s = .next t ∧ t = { s with lnk := t.lnk } ∧
      t.lnk.begunSlot = some s.own.toNat ∧
      t.lnk.dld = some
        { slot := s.own.toNat, home := true,
          parcel :=
            if s.crw.handoffDue = true then handoffParcel s.own s.nextTag s.leftmost
            else presenceParcel s.own (role s.straps) s.ptb.origin s.lnk.lapListen } ∧
      t.lnk.timer = 320 * s.own.toNat ∧ t.lnk.txq = s.lnk.txq ∧ t.lnk.sweep = s.lnk.sweep ∧
      t.lnk.lap = s.lnk.lap ∧ t.lnk.sync = .follow) ∧
  (∀ s : State, s.resetHeld = false →
    (s.lnk.begunSlot = some s.own.toNat ∨ s.lnk.sync ≠ .follow ∨ s.straps.sn = 0 ∨
      s.lnk.markInProgress = true) →
    exec .homeSlotTransmit s = .next s) ∧
  (∀ (s : State) (x : Tx), s.resetHeld = false → s.lnk.dld = some x → x.home = true →
    ∃ t, exec .homeSlotClash s = .next t ∧
      t = { s with lnk := { s.lnk with dld := none }, sts := { s.sts with clashLatch := true } })

/-- R16, R17: in an open slot the head of the queue is driven and stays in the queue; it leaves the
queue when sent whole or after a mismatch behind byte 0, which raises CLASH, and stays after a lost
arbitration. The slot stays noted as begun, and no parcel is begun in it a second time: the head is
offered at a later open slot. A station in LISTEN or STUCK, a mute listener and an empty queue offer
nothing. The bit times are those of the model's clock (assumption 4). -/
def Obligations.OpenSlotSends : Prop :=
  (∀ (slot : Slot) (s : State) (p : Parcel) (rest : List Parcel), s.resetHeld = false →
    16 ≤ slot.toNat → s.lnk.sync = .follow → s.straps.sn ≠ 0 → s.lnk.slotRunning = true →
    s.lnk.markInProgress = false → s.lnk.timer ≤ 320 * slot.toNat → s.lnk.dld = none →
    s.lnk.begunSlot ≠ some slot.toNat → s.lnk.txq = p :: rest →
    ∃ t, exec (.openSlotAttempt slot) s = .next t ∧ t = { s with lnk := t.lnk } ∧
      t.lnk.dld = some { slot := slot.toNat, home := false, parcel := p } ∧ t.lnk.txq = p :: rest ∧
      t.lnk.begunSlot = some slot.toNat ∧ t.lnk.timer = 320 * slot.toNat ∧
      t.lnk.sweep = s.lnk.sweep ∧ t.lnk.lap = s.lnk.lap) ∧
  (∀ (slot : Slot) (s : State), s.resetHeld = false →
    (s.lnk.begunSlot = some slot.toNat ∨ s.lnk.sync ≠ .follow ∨ s.straps.sn = 0 ∨ s.lnk.txq = []) →
    exec (.openSlotAttempt slot) s = .next s) ∧
  (∀ (mismatch : Option Byte) (s : State) (x : Tx), s.resetHeld = false → s.lnk.dld = some x →
    x.home = false →
    ∃ t, exec (.openSlotOutcome mismatch) s = .next t ∧ t = { s with lnk := t.lnk, sts := t.sts } ∧
      t.lnk.dld = none ∧ t.lnk.begunSlot = s.lnk.begunSlot ∧ t.lnk.sync = s.lnk.sync ∧
      t.lnk.sweep = s.lnk.sweep ∧
      (mismatch = none → t.lnk.txq = s.lnk.txq.tail ∧ t.lnk.sentSlot = some x.slot ∧ t.sts = s.sts) ∧
      (∀ b, mismatch = some b → b.toNat < 8 → t.lnk.txq = s.lnk.txq ∧ t.sts = s.sts) ∧
      (∀ b, mismatch = some b → 8 ≤ b.toNat → t.lnk.txq = s.lnk.txq.tail ∧
        t.sts = { s.sts with clashLatch := true }))

/-- R11, R18 to R21: a slot with a CRC error and one with a malformed parcel count as such and reach no
block; a REFRESH or STATUS of another station is counted as a good parcel and its home slot as heard. A
parcel with the own number as origin is discarded and raises CLASH (R19 step 3); a targeted parcel for
another station is counted and reaches no block (step 5). That a parcel in slot 1 is received also where
the line was classified as stuck in that slot is the model's choice (assumption 48). That the parcel moves the link clock to the
end of its 256 bits, whatever the slot's place, is the model's event-driven clock (assumption 4). -/
def Obligations.ParcelArrives : Prop :=
  (∀ (slot : Slot) (s : State), s.resetHeld = false → s.lnk.receives slot = true →
    ∃ t u, exec (.crcError slot) s = .next t ∧ exec (.malformedParcel slot) s = .next u ∧
      t = { s with lnk := t.lnk, sts := t.sts } ∧ u = { s with lnk := t.lnk, sts := u.sts } ∧
      t.sts = { s.sts with counters := { s.sts.counters with crc := t.sts.counters.crc } } ∧
      u.sts = { s.sts with tallies := { s.sts.tallies with malformed := u.sts.tallies.malformed } } ∧
      (s.sts.counters.crc ≠ BitVec.allOnes 32 → t.sts.counters.crc = s.sts.counters.crc + 1) ∧
      u.sts.tallies.malformed.toNat = min 65535 (s.sts.tallies.malformed.toNat + 1) ∧
      t.lnk.heard = s.lnk.heard ∧ t.lnk.timer = max (320 * slot.toNat + 256) s.lnk.timer) ∧
  (∀ (rx : Rx) (kind : IgnoredKind) (s : State), s.hears rx false →
    ∃ t, exec (.goodParcelIgnored rx kind) s = .next t ∧ t = s.arrived rx ∧
      t = { s with lnk := t.lnk, sts := t.sts } ∧
      t.sts = { s.sts with counters := { s.sts.counters with good := t.sts.counters.good } } ∧
      (s.sts.counters.good ≠ BitVec.allOnes 32 → t.sts.counters.good = s.sts.counters.good + 1) ∧
      t.lnk.timer = max (320 * rx.slot.toNat + 256) s.lnk.timer ∧ t.lnk.txq = s.lnk.txq ∧
      t.lnk.sweep = s.lnk.sweep ∧ t.lnk.lap = s.lnk.lap ∧ t.lnk.sync = s.lnk.sync ∧
      ∀ n, n ∈ t.lnk.heard ↔
        n ∈ s.lnk.heard ∨ (n = rx.origin.toNat ∧ rx.slot.toNat = rx.origin.toNat)) ∧
  (∀ (i : Instr) (rx : Rx) (s : State), rxOf i = some rx → s.resetHeld = false →
    s.lnk.receives rx.slot = true → rx.origin ≠ 0 → rx.origin = s.own →
    ∃ t, exec i s = .next t ∧ t = { s with lnk := t.lnk, sts := { s.sts with clashLatch := true } } ∧
      t.lnk = advanceTo (320 * rx.slot.toNat + 256) s.lnk) ∧
  (∀ (i : Instr) (rx : Rx) (s : State),
    ((∃ c, i.checked = some (rx, c)) ∨ (∃ b, i = .crawltext rx b) ∨
      i = .goodParcelIgnored rx .refresh) →
    s.hears rx false → rx.target ≠ 0 → rx.target ≠ s.own → exec i s = .next (s.arrived rx))

/-! ## Peer table -/

/-- R24, R26, R31, R35: a home-slot report sets the station's entry PRESENT with no misses when it
was heard, raises its miss count when not, and the eighth miss of a PRESENT station silences it: its
mark goes and the layout origin it held is released. Every other entry stands, and without a silence
event the marks, the layout origin and the directory stand. Whether the slot was heard is what the link
has noted of its receptions (assumption 7). -/
def Obligations.HomeSlotReportCounts : Prop :=
  ∀ (n : Station) (s : State), s.resetHeld = false → s.lnk.sync ≠ .listen →
    s.lnk.slotRunning = true → n ≠ 0 → n ≠ s.own →
    ∃ t, exec (.homeSlotReport n) s = .next t ∧
      (n.toNat ∈ s.lnk.heard → t.peer n = { s.peer n with state := .present, misses := 0 }) ∧
      (n.toNat ∉ s.lnk.heard → (s.peer n).state = .absent →
        t.peer n = { s.peer n with misses := min 8 ((s.peer n).misses + 1) }) ∧
      (n.toNat ∉ s.lnk.heard → (s.peer n).state = .present → (s.peer n).misses < 7 →
        t.peer n = { s.peer n with misses := (s.peer n).misses + 1 }) ∧
      (n.toNat ∉ s.lnk.heard → (s.peer n).state = .present → 7 ≤ (s.peer n).misses →
        t.peer n = { state := .silent, kind := .unknown, misses := 8 } ∧
          Tab.look n.toNat t.ptb.marks = none ∧
          (∀ m, m ≠ n.toNat → Tab.look m t.ptb.marks = Tab.look m s.ptb.marks) ∧
          t.ptb.origin = if s.ptb.origin = some n then none else s.ptb.origin) ∧
      (n.toNat ∉ s.lnk.heard → (s.peer n).state = .silent →
        t.peer n = { s.peer n with misses := 8 }) ∧
      n.toNat ∉ t.lnk.heard ∧ (∀ m, m ≠ n → t.peer m = s.peer m) ∧
      ((n.toNat ∈ s.lnk.heard ∨ (s.peer n).state ≠ .present ∨ (s.peer n).misses < 7) →
        t.ptb = { s.ptb with peers := t.ptb.peers } ∧ t.dir = s.dir) ∧
      t = { s with lnk := t.lnk, ptb := t.ptb, dir := t.dir }

/-- R26, R67: at the silence of a station no record is left with it as source or alternate. Each record
keeps all else, its mark count following the marks; one that had it as source loses its sequence
number, image and deadline and goes to its alternate in GAPPED when that is PRESENT, else to ORPHANED
without a source. The requests of those records go, and each that comes to GAPPED asks its new source
while the list has room (R69, R71; `s.refreshSwitched t n` in Sys2Proof/Safety.lean). R27: a kind
change event does the same. That an alternate goes also from a record without a source is the model's
choice (assumption 41). -/
def Obligations.SilenceSwitchesSources : Prop :=
  (∀ (n : Station) (s : State), s.resetHeld = false → s.lnk.sync ≠ .listen →
    s.lnk.slotRunning = true → n ≠ 0 → n ≠ s.own → n.toNat ∉ s.lnk.heard →
    (s.peer n).state = .present → 7 ≤ (s.peer n).misses → s.recordsMatch →
    ∃ t, exec (.homeSlotReport n) s = .next t ∧ s.refreshSwitched t n ∧
      (∀ e ∈ t.dir.records, e.2.source ≠ some n ∧ e.2.alternate ≠ some n) ∧
      ∀ k r, s.record? k = some r → ∃ r', t.record? k = some r' ∧ r'.items = r.items ∧
        (r.source ≠ some n → r' =
          { r with
            alternate := if r.alternate = some n then none else r.alternate
            marks := markCount t.ptb k }) ∧
        (r.source = some n → r' =
          { r with
            lastSeq := none, image := none, deadline := none, source := r'.source
            alternate := r'.alternate, state := r'.state, marks := markCount t.ptb k } ∧
          ((∃ a, r.alternate = some a ∧ a ≠ n ∧ s.isPresent a = true ∧ r'.source = some a ∧
              r'.alternate = none ∧ r'.state = .gapped) ∨
            ((∀ a, r.alternate = some a → a = n ∨ s.isPresent a = false) ∧ r'.source = none ∧
              r'.alternate = (if r.alternate = some n then none else r.alternate) ∧
              r'.state = .orphaned)))) ∧
  (∀ (rx : Rx) (b : PresenceBody) (s : State), s.hears rx false → s.recordsMatch →
    s.sourcesDiffer → (s.peer rx.origin).state = .present → (s.peer rx.origin).kind ≠ .unknown →
    (s.peer rx.origin).kind ≠ kindOf b.kind →
    ∃ t, exec (.presence rx b) s = .next t ∧ s.refreshSwitched t rx.origin ∧
      (∀ e ∈ t.dir.records, e.2.source ≠ some rx.origin ∧ e.2.alternate ≠ some rx.origin) ∧
      ∀ k r, s.record? k = some r → ∃ r', t.record? k = some r' ∧ r'.items = r.items ∧
        (r.source ≠ some rx.origin → r' =
          { r with
            alternate := if r.alternate = some rx.origin then none else r.alternate
            marks := markCount t.ptb k }) ∧
        (r.source = some rx.origin → r' =
          { r with
            lastSeq := none, image := none, deadline := none, source := r'.source
            alternate := r'.alternate, state := r'.state, marks := markCount t.ptb k } ∧
          ((∃ a, r.alternate = some a ∧ s.isPresent a = true ∧ r'.source = some a ∧
              r'.alternate = none ∧ r'.state = .gapped) ∨
            ((∀ a, r.alternate = some a → s.isPresent a = false) ∧ r'.source = none ∧
              r'.alternate = r.alternate ∧ r'.state = .orphaned))))

/-- R25, R27: a PRESENCE sets the kind of its origin's entry and leaves its state and misses;
another known kind on a PRESENT entry also takes away the station's mark and releases the layout
origin it held, otherwise nothing but the peer table changes. R29, R30: a MARK sets or clears its
origin's entry of the mark table, every record's mark count follows, and nothing else changes. -/
def Obligations.PresenceAndMarkTaken : Prop :=
  (∀ (rx : Rx) (b : PresenceBody) (s : State), s.hears rx false →
    ∃ t, exec (.presence rx b) s = .next t ∧
      t.peer rx.origin =
        { s.peer rx.origin with
          kind :=
            if b.kind = 1 then .feed else if b.kind = 2 then .console
            else if b.kind = 3 then .painter else .other } ∧
      (∀ m, m ≠ rx.origin → t.peer m = s.peer m) ∧
      ((s.peer rx.origin).state = .present → (s.peer rx.origin).kind ≠ .unknown →
        (s.peer rx.origin).kind ≠ (t.peer rx.origin).kind →
        Tab.look rx.origin.toNat t.ptb.marks = none ∧
          (∀ m, m ≠ rx.origin.toNat → Tab.look m t.ptb.marks = Tab.look m s.ptb.marks) ∧
          t.ptb.origin = if s.ptb.origin = some rx.origin then none else s.ptb.origin) ∧
      ((s.peer rx.origin).state ≠ .present ∨ (s.peer rx.origin).kind = .unknown ∨
          (s.peer rx.origin).kind = (t.peer rx.origin).kind →
        t = { s.arrived rx with ptb := { s.ptb with peers := t.ptb.peers } }) ∧
      t = { s.arrived rx with ptb := t.ptb, dir := t.dir }) ∧
  (∀ (rx : Rx) (sub : Nibble) (key : Key) (s : State), s.hears rx false → s.recordsMatch →
    ∃ t, exec (.mark rx sub key) s = .next t ∧
      Tab.look rx.origin.toNat t.ptb.marks = (if sub.getLsbD 0 then some key else none) ∧
      (∀ m, m ≠ rx.origin.toNat → Tab.look m t.ptb.marks = Tab.look m s.ptb.marks) ∧
      (∀ k, t.record? k = (s.record? k).map fun r => { r with marks := markCount t.ptb k }) ∧
      t = { s.arrived rx with ptb := { s.ptb with marks := t.ptb.marks },
                              dir := { s.dir with records := t.dir.records } })

/-! ## Tick intake -/

/-- R37 to R39, R42, R47: a TICK of a keyed record from its source, with no open entry of that origin
and room in the queue, joins the tail as an entry holding the last value the parcel gives each item
code 0..11; an open entry of another origin is closed; a record without a source adopts the origin. A
TICK of no record is tallied as unbound. A TICK of another station than the source is discarded and
becomes the record's alternate. -/
def Obligations.TickStartsEntry : Prop :=
  (∀ (rx : Rx) (b : TickBody) (s : State) (r : Record), s.hears rx false → s.recordsMatch →
    s.record? b.key = some r → (r.source = none ∨ r.source = some rx.origin) →
    (∀ x, openEntry b.key s.inq = some x → x.origin ≠ rx.origin) → s.inq.length < 64 →
    ∃ t e, exec (.tick rx b) s = .next t ∧
      t.inq = s.inq.map (fun x => if x.isOpen = true ∧ x.key = b.key then { x with isOpen := false }
        else x) ++ [e] ∧
      (openEntry b.key s.inq = none → t.inq = s.inq ++ [e]) ∧ e.key = b.key ∧
      e.origin = rx.origin ∧ e.firstSeq = b.seq ∧ e.lastSeq = b.seq ∧
      e.imageStart = b.sub.getLsbD 0 ∧ e.imageEnd = b.sub.getLsbD 1 ∧ e.gap = false ∧
      e.isOpen = !b.sub.getLsbD 1 ∧
      (∀ code, Tab.look code e.items =
        if code < 12 then
          (((b.items.take (min b.count.toNat 4)).filter fun i => decide (i.code.toNat = code)).getLast?.map
            fun i => { value := i.value, scale := i.scale })
        else none) ∧
      t.record? b.key = some
        { r with
          source := some rx.origin
          alternate := if r.source = none ∧ r.alternate = some rx.origin then none
            else r.alternate } ∧
      (∀ k, k ≠ b.key → t.record? k = s.record? k) ∧
      (s.sts.counters.accepted ≠ BitVec.allOnes 32 →
        t.sts.counters.accepted = s.sts.counters.accepted + 1) ∧
      t = { s.arrived rx with inq := t.inq, dir := { s.dir with records := t.dir.records },
                              sts := t.sts }) ∧
  (∀ (rx : Rx) (b : TickBody) (s : State), s.hears rx false → s.record? b.key = none →
    ∃ t, exec (.tick rx b) s = .next t ∧ t = { s.arrived rx with sts := t.sts } ∧
      t.sts.tallies.unbound.toNat = min 65535 (s.sts.tallies.unbound.toNat + 1)) ∧
  (∀ (rx : Rx) (b : TickBody) (s : State) (r : Record) (o : Station), s.hears rx false →
    s.recordsMatch → s.record? b.key = some r → r.source = some o → o ≠ rx.origin →
    ∃ t, exec (.tick rx b) s = .next t ∧
      t.record? b.key = some { r with alternate := some rx.origin } ∧
      (∀ k, k ≠ b.key → t.record? k = s.record? k) ∧
      t = { s.arrived rx with dir := { s.dir with records := t.dir.records } })

/-- R42, R48, R64, R65, R69: against a full queue the TICK is dropped and counted, the queue stands but
that an open entry of another origin is closed, and the record goes GAPPED without a deadline, an image
in progress gapped. A refresh of the key is asked of its source where R69 lets one be, and every other
record stands. -/
def Obligations.TickDroppedWhenFull : Prop :=
  ∀ (rx : Rx) (b : TickBody) (s : State) (r : Record), s.hears rx false → s.recordsMatch →
    s.record? b.key = some r → (r.source = none ∨ r.source = some rx.origin) →
    (∀ x, openEntry b.key s.inq = some x → x.origin ≠ rx.origin) → 64 ≤ s.inq.length →
    ∃ t r', exec (.tick rx b) s = .next t ∧
      t.inq = s.inq.map (fun x => if x.isOpen = true ∧ x.key = b.key then { x with isOpen := false }
        else x) ∧
      (openEntry b.key s.inq = none → t.inq = s.inq) ∧ t.record? b.key = some r' ∧
      r' = { r with
        state := .gapped, deadline := none, source := some rx.origin
        image := r.image.map fun i => { i with gapped := true }
        alternate := if r.source = none ∧ r.alternate = some rx.origin then none
          else r.alternate } ∧
      (∀ k, k ≠ b.key → t.record? k = s.record? k) ∧
      t.dir.refresh = s.refreshAsked b.key rx.origin ∧
      (s.sts.counters.dropped ≠ BitVec.allOnes 32 →
        t.sts.counters.dropped = s.sts.counters.dropped + 1) ∧
      t = { s.arrived rx with inq := t.inq, dir := t.dir, sts := t.sts }

/-- R43 to R46: a TICK that meets an open entry of its origin merges into it in place and is counted
accepted and conflated; its items are written over those held, an IMAGE_START drops them first and
clears gap, a sequence gap sets gap, an IMAGE_END closes the entry. A TICK not after the entry is a
duplicate and changes no entry. -/
def Obligations.TickMerges : Prop :=
  ∀ (rx : Rx) (b : TickBody) (s : State) (r : Record) (e : IntakeEntry), s.hears rx false →
    s.recordsMatch → s.record? b.key = some r → (r.source = none ∨ r.source = some rx.origin) →
    openEntry b.key s.inq = some e → e.origin = rx.origin →
    ∃ t, exec (.tick rx b) s = .next t ∧
      (if b.seq - e.lastSeq = 0 ∨ 32768 ≤ (b.seq - e.lastSeq).toNat then
        t.inq = s.inq ∧
          t.sts.tallies.duplicates.toNat = min 65535 (s.sts.tallies.duplicates.toNat + 1)
      else
        ∃ e', t.inq = s.inq.map (fun x => if x.isOpen = true ∧ x.key = b.key then e' else x) ∧
          e'.key = b.key ∧ e'.origin = rx.origin ∧ e'.lastSeq = b.seq ∧
          e'.firstSeq = (if b.sub.getLsbD 0 then b.seq else e.firstSeq) ∧
          e'.gap = (!b.sub.getLsbD 0 && (e.gap || decide (b.seq - e.lastSeq ≠ 1))) ∧
          e'.imageStart = (e.imageStart || b.sub.getLsbD 0) ∧
          e'.imageEnd = (e.imageEnd || b.sub.getLsbD 1) ∧ e'.isOpen = !b.sub.getLsbD 1 ∧
          (∀ code, code < 12 → Tab.look code e'.items =
            match ((b.items.take (min b.count.toNat 4)).filter
                fun i => decide (i.code.toNat = code)).getLast? with
            | some i => some { value := i.value, scale := i.scale }
            | none => if b.sub.getLsbD 0 then none else Tab.look code e.items) ∧
          (s.sts.counters.accepted ≠ BitVec.allOnes 32 →
            t.sts.counters.accepted = s.sts.counters.accepted + 1) ∧
          (s.sts.counters.conflated ≠ BitVec.allOnes 32 →
            t.sts.counters.conflated = s.sts.counters.conflated + 1)) ∧
      t.record? b.key = some
        { r with
          source := some rx.origin
          alternate := if r.source = none ∧ r.alternate = some rx.origin then none
            else r.alternate } ∧
      (∀ k, k ≠ b.key → t.record? k = s.record? k) ∧
      t = { s.arrived rx with inq := t.inq, dir := { s.dir with records := t.dir.records },
                              sts := t.sts }

/-! ## Instrument directory -/

/-- R49, R51, R57 to R61, R65, R69, R71 to R73, R117: INTAKE_TAKE takes the head entry off the queue.
An entry of the record's source without image_start is applied: in sequence, its items are stored over
the record's, the sequence number follows, a STALE record is LIVE again and a LIVE one takes a new
deadline; at first contact and after a sequence gap the record goes GAPPED and asks for a refresh, and
the gap is counted. `s.applied t e r …` in Sys2Proof/Safety.lean says all that an apply does, the end
of an image in progress (R63) and the fields enqueued ORDINARY in ascending field index among it. A
duplicate is tallied and an entry that is not from the source is discarded, with no other effect. With
64 fields in the paint queue the entry waits, and an empty queue gives nothing to take. -/
def Obligations.InSequenceEntryApplies : Prop :=
  (∀ (s : State) (e : IntakeEntry) (rest : List IntakeEntry) (r : Record) (gap : Bool),
    s.resetHeld = false → s.recordsMatch → s.buffersSound → s.inq = e :: rest →
    s.pnt.queue.length < 64 → s.record? e.key = some r → r.source = some e.origin →
    e.imageStart = false →
    (∀ l, r.lastSeq = some l → e.firstSeq - l ≠ 0 ∧ (e.firstSeq - l).toNat < 32768) →
    gap = r.lastSeq.any (fun l => e.gap || decide (e.firstSeq ≠ l + 1)) →
    ∃ t, exec .intakeTake s = .next t ∧ t.inq = rest ∧
      (r.lastSeq = none → s.applied t e r true false r.image .gapped) ∧
      (r.lastSeq ≠ none → gap = false →
        s.applied t e r false false r.image (if r.state = .stale then .live else r.state)) ∧
      (gap = true →
        s.applied t e r true true (r.image.map fun i => { i with gapped := true }) .gapped)) ∧
  (∀ (s : State) (e : IntakeEntry) (rest : List IntakeEntry) (r : Record) (l : Seq),
    s.resetHeld = false → s.inq = e :: rest → s.pnt.queue.length < 64 →
    s.record? e.key = some r → r.source = some e.origin → e.imageStart = false →
    r.lastSeq = some l → (e.firstSeq - l = 0 ∨ 32768 ≤ (e.firstSeq - l).toNat) →
    ∃ t, exec .intakeTake s = .next t ∧
      t.sts.tallies.duplicates.toNat = min 65535 (s.sts.tallies.duplicates.toNat + 1) ∧
      t = { s with
        inq := rest
        sts := { s.sts with
          tallies := { s.sts.tallies with duplicates := t.sts.tallies.duplicates } } }) ∧
  (∀ (s : State) (e : IntakeEntry) (rest : List IntakeEntry), s.resetHeld = false →
    s.inq = e :: rest → s.pnt.queue.length < 64 →
    (∀ r, s.record? e.key = some r → r.source ≠ some e.origin) →
    exec .intakeTake s = .next { s with inq := rest }) ∧
  (∀ s : State, s.resetHeld = false → (64 ≤ s.pnt.queue.length ∨ s.inq = []) →
    exec .intakeTake s = .next s)

/-- R62, R63, R65, R71: an entry with image_start begins an image in progress, gapped where the entry
has a gap, which also puts the record in GAPPED, counts the gap and asks for a refresh; with image_end
it ends the image again (`s.applied` in Sys2Proof/Safety.lean). So an entry that is a whole image
without a gap replaces every item of the record and brings it LIVE, with no image in progress, a new
deadline and no refresh request left. -/
def Obligations.WholeImageMakesLive : Prop :=
  (∀ (s : State) (e : IntakeEntry) (rest : List IntakeEntry) (r : Record), s.resetHeld = false →
    s.recordsMatch → s.buffersSound → s.inq = e :: rest → s.pnt.queue.length < 64 →
    s.record? e.key = some r → r.source = some e.origin → e.imageStart = true →
    ∃ t, exec .intakeTake s = .next t ∧ t.inq = rest ∧
      s.applied t e r e.gap e.gap (some { seen := [], gapped := e.gap })
        (if e.gap then .gapped else r.state)) ∧
  (∀ (s : State) (e : IntakeEntry) (rest : List IntakeEntry) (r : Record), s.resetHeld = false →
    s.recordsMatch → s.buffersSound → s.inq = e :: rest → s.pnt.queue.length < 64 →
    s.record? e.key = some r → r.source = some e.origin → e.imageStart = true →
    e.imageEnd = true → e.gap = false →
    ∃ t r', exec .intakeTake s = .next t ∧ t.inq = rest ∧ t.record? e.key = some r' ∧
      (∀ i : Item, Tab.look i.code r'.items = (Tab.look i.code e.items).map (storeItem i)) ∧
      r'.state = .live ∧ r'.image = none ∧ r'.lastSeq = some e.lastSeq ∧
      r'.deadline =
        (if s.lay.global.staleLimit ≠ 0 then
          some (s.lnk.sweep + BitVec.ofNat 32 s.lay.global.staleLimit) else none) ∧
      (∀ x ∈ t.dir.refresh, x.key ≠ e.key) ∧ (∀ k, k ≠ e.key → t.record? k = s.record? k))

/-- R66: at a sweep start every LIVE record whose stale deadline is reached goes STALE without a
deadline, and nothing else changes. R70: in the pass over the requests, in the list's order, one whose
second deadline is reached is given up and tallied, and one that is WAITING or whose first deadline is
reached is SENT with a new deadline and a REFRESH queued while the transmit queue has room, else it is
WAITING; every other request stands. The pass over the requests is split between the sweep start and
this command, which is the model's reading (assumption 26). -/
def Obligations.SweepStartExpiries : Prop :=
  (∀ s : State, s.resetHeld = false →
    ∃ t, exec .staleExpiry s = .next t ∧
      (∀ k, t.record? k = (s.record? k).map fun r =>
        if r.state = .live ∧ (∃ due, r.deadline = some due ∧ (s.lnk.sweep - due).toNat < 2 ^ 31) then
          { r with state := .stale, deadline := none }
        else r) ∧
      t = { s with dir := { s.dir with records := t.dir.records } }) ∧
  (∀ s : State, s.resetHeld = false →
    ∃ t, exec .refreshDeadline s = .next t ∧
      t.lnk.txq =
        s.lnk.txq ++ ((s.dir.refresh.filter s.offers).take (8 - s.lnk.txq.length)).map
          (fun e => refreshParcel s.own e.target e.key) ∧
      t.dir.refresh.map RefreshEntry.key =
        (s.dir.refresh.filter fun e => !s.givesUp e).map RefreshEntry.key ∧
      (∀ (n : Nat) (e : RefreshEntry), s.dir.refresh[n]? = some e → s.givesUp e = false →
        t.dir.refresh[((s.dir.refresh.take n).filter fun x => !s.givesUp x).length]? = some
          (if s.offers e = true then
            { e with
              second := e.second || decide (e.state ≠ .waiting)
              state :=
                if s.lnk.txq.length + ((s.dir.refresh.take n).filter s.offers).length < 8 then
                  .sent (s.lnk.sweep + 256)
                else .waiting
              inPass := false }
          else { e with inPass := false })) ∧
      t.sts.tallies.refreshFail.toNat =
        min 65535 (s.sts.tallies.refreshFail.toNat + (s.dir.refresh.filter s.givesUp).length) ∧
      t = { s with
        lnk := { s.lnk with txq := t.lnk.txq }, dir := { s.dir with refresh := t.dir.refresh }
        sts := { s.sts with
          tallies := { s.sts.tallies with refreshFail := t.sts.tallies.refreshFail } } })

/-! ## Value arithmetic and formatting -/

/-- R76: rounding is to the nearest integer, and of two nearest integers to the one of larger
magnitude. -/
def Obligations.RoundsHalfAway : Prop :=
  ∀ (n : Int) (d : Nat), 0 < d →
    2 * |n - roundDiv n d * d| ≤ d ∧
      (2 * |n - roundDiv n d * d| = d → |n| ≤ |roundDiv n d * d|) ∧ roundDiv (-n) d = -roundDiv n d

/-- R85: a field's text is exactly as many glyphs as the field is wide, whatever its item, its
format, the condition labels and the values. -/
def Obligations.FieldTextFillsWidth : Prop :=
  ∀ (f : Field) (labels : Tab Text) (items : Tab Stored), (fieldText f labels items).length = f.width

/-- R77, R81: the direction between two prices, or two percentages, is that of the numbers they stand
for, whatever their scales, that between two sizes, times or condition codes is that of the numbers; it
is none when a value is ABSENT or CLAMPED and between any two values of different kinds. R78, R79: the
difference of two unclamped prices that fits the price range is the exact difference at the finer
scale; with an input ABSENT it is ABSENT. -/
def Obligations.PricesCompareAndSubtract : Prop :=
  ((∀ (m n : Int) (a b : Nat),
    (direction (some (.present (.price m a))) (.present (.price n b)) = .up ↔ m * 10 ^ b < n * 10 ^ a) ∧
    (direction (some (.present (.price m a))) (.present (.price n b)) = .down ↔
      n * 10 ^ a < m * 10 ^ b) ∧
    (direction (some (.present (.price m a))) (.present (.price n b)) = .equal ↔
      m * 10 ^ b = n * 10 ^ a)) ∧
  (∀ (m n : Int) (a b : Nat),
    (direction (some (.present (.percentage m a))) (.present (.percentage n b)) = .up ↔
      m * 10 ^ b < n * 10 ^ a) ∧
    (direction (some (.present (.percentage m a))) (.present (.percentage n b)) = .down ↔
      n * 10 ^ a < m * 10 ^ b) ∧
    (direction (some (.present (.percentage m a))) (.present (.percentage n b)) = .equal ↔
      m * 10 ^ b = n * 10 ^ a)) ∧
  (∀ (kind : Nat → Content) (m n : Nat), kind = .size ∨ kind = .seconds ∨ kind = .code →
    direction (some (.present (kind m))) (.present (kind n)) =
      if m < n then .up else if n < m then .down else .equal) ∧
  (∀ a b : Content, a.kindCode ≠ b.kindCode →
    direction (some (.present a)) (.present b) = .none) ∧
  (∀ (c : Content) (v : Value), direction none v = .none ∧ direction (some .absent) v = .none ∧
    direction (some (.clamped c)) v = .none ∧ direction (some v) .absent = .none ∧
    direction (some v) (.clamped c) = .none)) ∧
  ((∀ (items : Tab Stored) (a b : Item) (ma mb : Int) (sa sb : Nat),
    Tab.look a.code items = some { content := .price ma sa, clamped := false } →
    Tab.look b.code items = some { content := .price mb sb, clamped := false } →
    |ma * 10 ^ (max sa sb - sa) - mb * 10 ^ (max sa sb - sb)| ≤ 999999999 →
    difference items a b =
      .present (.price (ma * 10 ^ (max sa sb - sa) - mb * 10 ^ (max sa sb - sb)) (max sa sb))) ∧
  (∀ (items : Tab Stored) (a b : Item),
    (Tab.look a.code items = none ∨ Tab.look b.code items = none) → difference items a b = .absent))

/-! ## Layout store -/

/-- R32, R54 to R56, R95 to R99, R115, R124, R144, R145: a FIELD record of one entry that passes its
tests, in the explicit or the continue mode, binds its index to the field it describes, its width
clamped to 40 and to the plane's last column; the layout pointer follows, the origin holds the layout,
the key has a record, and a field unbound from the index leaves no paint state and no highlight entry
behind, and a painter burst of it is withdrawn, or marked where it was granted (R124). The records
follow the references (R54 to R56, `s.recordsFollow` in Sys2Proof/Safety.lean). The index leaves the
compose set that held it, and a binding to a visible field of a page in its FIELDS phase joins the set
(R144, R145). No other index changes. A field unbound from a shown page has its cells cleared by a
first burst, and the last burst hands over the INITIAL paint of the new binding on a shown page;
without a field unbound there, that paint is enqueued at once (which bindings get it: assumption 42;
that no other field gets one, also where a repainted run passes over its text: assumption 45). A width
of 0 deletes the index. Two entries are taken at the index and the next; with both indices holding
fields of one shown page, both are cleared before the label runs that cover a cleared cell are
repainted, each whole and once, in ascending run index (R99). -/
def Obligations.FieldRecordBinds : Prop :=
  (∀ (rx : Rx) (rec : FieldRecord) (sel : Selector) (fmt : Format) (sub : Subst) (start : Nat)
    (s : State), s.hears rx true → s.allows rx.origin → s.recordsMatch →
    start = (if rec.atPointer then s.lay.pointer else rec.start.toNat) → start < 512 →
    rec.count = 1 →
    rec.first.width ≠ 0 → rec.first.column.toNat < cols s.straps →
    Selector.ofCode rec.first.item.toNat = some sel →
    readFormat rec.first.format rec.first.param = some fmt → readSubst rec.first.subst = some sub →
    (∀ j g, Tab.look j s.lay.fields = some g → j ≠ start →
      g.page = rec.first.page.toNat → g.row = rec.first.row.toNat →
      g.column + g.width ≤ rec.first.column.toNat ∨
        rec.first.column.toNat + min (min rec.first.width.toNat 40)
          (cols s.straps - rec.first.column.toNat) ≤ g.column) →
    s.dir.records.length < 256 →
    ∃ t, exec (.field rx rec) s = .next t ∧
      Tab.look start t.lay.fields = some
        { page := rec.first.page.toNat, row := rec.first.row.toNat,
          column := rec.first.column.toNat,
          width := min (min rec.first.width.toNat 40) (cols s.straps - rec.first.column.toNat),
          key := rec.first.key, selector := sel, format := fmt, right := rec.first.justifyRight,
          plus := rec.first.plus, grouping := rec.first.grouping,
          policy := rec.first.policy.toNat, throttle := rec.first.throttle.toNat, subst := sub,
          fg := rec.first.fg, bg := rec.first.bg, blink := rec.first.blink,
          localMark := rec.first.localMark } ∧
      (∀ j, j ≠ start → Tab.look j t.lay.fields = Tab.look j s.lay.fields) ∧
      t.lay.pointer = start + 1 ∧ t.ptb.origin = some rx.origin ∧
      (t.record? rec.first.key).isSome = true ∧
      s.recordsFollow t (rec.first.key :: ((Tab.look start s.lay.fields).map Field.key).toList) ∧
      ((Tab.look start s.lay.fields).isSome = true →
        t.paintState start = initialPaint ∧
          t.pnt.highlights = s.pnt.highlights.filter (fun h => decide (h.index ≠ start)) ∧
          t.pnt.burst = s.pnt.burst.bind fun b =>
            if b.index ≠ start then some b else if b.stage = .waiting then none
            else some { b with unbound := true }) ∧
      (∀ j, j ≠ start → t.paintState j = s.paintState j) ∧
      (s.windowsAgree → (∀ w, (s.window w).compose ≠ some (.fields [])) →
        (∀ w v set, s.showing rec.first.page.toNat = some (w, v) →
          rec.first.row.toNat < v.height → v.compose = some (.fields set) →
          ∃ l, (t.window w).compose = some (.fields l) ∧ start ∈ l ∧
            ∀ j, j ≠ start → (j ∈ l ↔ j ∈ set)) ∧
        ((∀ w v, s.showing rec.first.page.toNat = some (w, v) →
            v.height ≤ rec.first.row.toNat ∨ v.state ≠ .composing ∨ v.compose = some .bursts) →
          (Tab.look start s.lay.fields = none → ∀ w, t.window w = s.window w) ∧
            ((Tab.look start s.lay.fields).isSome = true → s.initialReported t start))) ∧
      (Tab.look start s.lay.fields = none →
        t.cpl = s.cpl ∧ (s.showing rec.first.page.toNat = none → t.pnt = s.pnt) ∧
          ((s.showing rec.first.page.toNat).isSome = true →
            ∃ q ∈ t.pnt.queue, q.index = start ∧ q.kind = .initial)) ∧
      (∀ g w v, Tab.look start s.lay.fields = some g → s.showing g.page = some (w, v) →
        g.row < v.height → t.cpl.bursts.length < 1024 →
        ∃ b l last, t.cpl.bursts = s.cpl.bursts ++ b :: l ∧ b.kind = .fieldClear ∧
          b.row = v.top + g.row ∧ b.column = g.column ∧
          b.cells = List.replicate g.width { glyph := 0x20, fg := 7, bg := v.background,
                                             blink := false, underline := false, field := none } ∧
          t.cpl.bursts.getLast? = some last ∧ last.after = .initial
            (if (s.showing rec.first.page.toNat).isSome then [start] else [])) ∧
      t.lay = { s.lay with fields := t.lay.fields, pointer := t.lay.pointer } ∧
      t = { (s.arrived rx).claimed rx.origin with
            dir := t.dir, lay := t.lay, pnt := t.pnt, win := t.win
            cpl := { s.cpl with bursts := t.cpl.bursts } }) ∧
  (∀ (rx : Rx) (rec : FieldRecord) (start : Nat) (s : State), s.hears rx true → s.allows rx.origin →
    s.recordsMatch → start = (if rec.atPointer then s.lay.pointer else rec.start.toNat) →
    start < 512 → rec.count = 1 → rec.first.width = 0 → s.dir.records.length ≤ 256 →
    (∀ w, (s.window w).compose ≠ some (.fields [])) →
    ∃ t, exec (.field rx rec) s = .next t ∧ Tab.look start t.lay.fields = none ∧
      (∀ j, j ≠ start → Tab.look j t.lay.fields = Tab.look j s.lay.fields) ∧
      t.lay = { s.lay with fields := t.lay.fields, pointer := start + 1 } ∧
      (∀ g, Tab.look start s.lay.fields = some g → t.paintState start = initialPaint ∧
        (refCount t.lay g.key = 0 → t.record? g.key = none) ∧ s.recordsFollow t [g.key] ∧
        (s.windowsAgree → s.initialReported t start)) ∧
      (Tab.look start s.lay.fields = none →
        t = { (s.arrived rx).claimed rx.origin with lay := { s.lay with pointer := start + 1 } }) ∧
      t.sts = (s.arrived rx).sts) ∧
  (∀ (rx : Rx) (rec : FieldRecord) (a b : EntryRead) (start : Nat) (s : State), s.hears rx true →
    s.allows rx.origin → start = (if rec.atPointer then s.lay.pointer else rec.start.toNat) →
    start + 2 ≤ 512 → rec.count = 2 → readEntry (cols s.straps) rec.first = some a →
    readEntry (cols s.straps) rec.second = some b →
    overlaps s.lay.fields [(start, a), (start + 1, b)] = false → s.recordsMatch →
    s.dir.records.length < 255 →
    ∃ t, exec (.field rx rec) s = .next t ∧ Tab.look start t.lay.fields = a.field? ∧
      Tab.look (start + 1) t.lay.fields = b.field? ∧
      (∀ j, j ≠ start → j ≠ start + 1 → Tab.look j t.lay.fields = Tab.look j s.lay.fields) ∧
      (∀ g h w v l, Tab.look start s.lay.fields = some g →
        Tab.look (start + 1) s.lay.fields = some h → g.page = h.page →
        s.showing g.page = some (w, v) → g.row < v.height → h.row < v.height →
        l = (s.lay.labels.filter fun e => decide (e.2.page = g.page) &&
          (decide (e.2.row = g.row ∧ e.2.column < g.column + g.width ∧
              g.column < e.2.column + e.2.glyphs.length) ||
            decide (e.2.row = h.row ∧ e.2.column < h.column + h.width ∧
              h.column < e.2.column + e.2.glyphs.length))).map Prod.snd →
        s.cpl.bursts.length + 2 + l.length ≤ 1024 →
        t.cpl.bursts = s.cpl.bursts ++
          closeLast (.initial (runInitial s [(start, a), (start + 1, b)]))
            ([g, h].map (fun f =>
                { kind := .fieldClear, row := v.top + f.row, column := f.column
                  cells := List.replicate f.width
                    { glyph := 0x20, fg := 7, bg := v.background, blink := false, underline := false,
                      field := none }
                  owner := .layout, after := .nothing }) ++
              l.map fun r =>
                { kind := .label, row := v.top + r.row, column := r.column
                  cells := r.glyphs.map fun c =>
                    { glyph := c, fg := r.fg, bg := r.bg, blink := r.blink, underline := false,
                      field := none }
                  owner := .layout, after := .nothing })) ∧
      t.lay = { s.lay with fields := t.lay.fields, pointer := start + 2 } ∧
      t.sts = (s.arrived rx).sts)

/-- R95, R101 to R103: a LABEL record writes its run, its length clamped to 20 and to the plane's last
column, where the label store has room; a length of 0 deletes the run. No other run and no other table
changes, and on a page that is not shown nothing is written to the plane. On a shown page the run's old
cells are cleared first, every run that covers one of its old or new cells is repainted whole in
ascending run index, and the last burst hands over the REPAINT of the fields that meet those cells
(assumptions 37 and 38), and of none that meets only other cells of a repainted run (assumption 45). -/
def Obligations.LabelRecordWrites : Prop :=
  ∀ (rx : Rx) (rec : LabelRecord) (s : State), s.hears rx true → s.allows rx.origin →
    rec.run.toNat ≤ 255 →
    (rec.length = 0 ∨ rec.charset.toNat ≤ 1 ∧ rec.column.toNat < cols s.straps) →
    labelChars (Tab.erase rec.run.toNat s.lay.labels) +
      min (min rec.length.toNat 20) (cols s.straps - rec.column.toNat) ≤ 2048 →
    ∃ t, exec (.label rx rec) s = .next t ∧
      Tab.look rec.run.toNat t.lay.labels =
        (if rec.length = 0 then none
        else some
          { page := rec.page.toNat, row := rec.row.toNat, column := rec.column.toNat,
            glyphs :=
              (rec.chars.take (min (min rec.length.toNat 20) (cols s.straps - rec.column.toNat))).map
                (fun c => BitVec.ofNat 9 (256 * rec.charset.toNat + c.toNat)),
            fg := rec.fg, bg := rec.bg, blink := rec.blink }) ∧
      (∀ i, i ≠ rec.run.toNat → Tab.look i t.lay.labels = Tab.look i s.lay.labels) ∧
      t.lay = { s.lay with labels := t.lay.labels } ∧ t.dir = s.dir ∧ t.win = s.win ∧
      t.crw = s.crw ∧ t.ptb = { s.ptb with origin := some rx.origin } ∧
      ((∀ r, Tab.look rec.run.toNat s.lay.labels = some r → s.showing r.page = none) →
        (rec.length = 0 ∨ s.showing rec.page.toNat = none) → t.cpl = s.cpl ∧ t.pnt = s.pnt) ∧
      (∀ r w v, Tab.look rec.run.toNat s.lay.labels = some r → s.showing r.page = some (w, v) →
        r.row < v.height → t.cpl.bursts.length < 1024 →
        ∃ b l, t.cpl.bursts = s.cpl.bursts ++ b :: l ∧ b.kind = .labelClear ∧
          b.row = v.top + r.row ∧ b.column = r.column ∧
          b.cells = List.replicate r.glyphs.length
            { glyph := 0x20, fg := 7, bg := v.background, blink := false, underline := false,
              field := none }) ∧
      (∀ r w v, Tab.look rec.run.toNat t.lay.labels = some r → r.glyphs ≠ [] →
        s.showing r.page = some (w, v) → r.row < v.height → t.cpl.bursts.length < 1024 →
        t.pnt = s.pnt ∧ ∃ l last, t.cpl.bursts = s.cpl.bursts ++ l ∧
          (∃ b ∈ l, b.kind = .label ∧ b.row = v.top + r.row ∧ b.column = r.column ∧
            b.cells = r.glyphs.map fun g =>
              { glyph := g, fg := r.fg, bg := r.bg, blink := r.blink, underline := false,
                field := none }) ∧
          l.getLast? = some last ∧
          last.after = .repaint
            (((Tab.look rec.run.toNat s.lay.labels).toList ++ [r]).map fun x =>
              { page := x.page, row := x.row, column := x.column, length := x.glyphs.length })) ∧
      (∀ page w v runs l, s.showing page = some (w, v) →
        runs = (Tab.look rec.run.toNat s.lay.labels).toList ++
          (Tab.look rec.run.toNat t.lay.labels).toList → (∀ r ∈ runs, r.page = page) →
        l = ((Tab.look rec.run.toNat s.lay.labels).toList.filter
            (fun r => decide (r.row < v.height))).map (fun r =>
              { kind := .labelClear, row := v.top + r.row, column := r.column
                cells := List.replicate r.glyphs.length
                  { glyph := 0x20, fg := 7, bg := v.background, blink := false, underline := false,
                    field := none }
                owner := .layout, after := .nothing }) ++
          (t.lay.labels.filter fun e =>
            decide (e.2.page = page ∧ e.2.row < v.height) && runs.any fun r =>
              decide (e.2.row = r.row ∧ e.2.column < r.column + r.glyphs.length ∧
                r.column < e.2.column + e.2.glyphs.length)).map (fun e =>
              { kind := .label, row := v.top + e.2.row, column := e.2.column
                cells := e.2.glyphs.map fun g =>
                  { glyph := g, fg := e.2.fg, bg := e.2.bg, blink := e.2.blink, underline := false,
                    field := none }
                owner := .layout, after := .nothing }) →
        s.cpl.bursts.length + l.length ≤ 1024 →
        t.cpl = { s.cpl with
          bursts := s.cpl.bursts ++ closeLast
            (.repaint (runs.map fun x =>
              { page := x.page, row := x.row, column := x.column, length := x.glyphs.length })) l })

/-- R104, R105: a WINDOW record whose band lies in the free rows and meets no other window gives
window w its band and background; the window it replaces loses its page, its carousel and its
override, and every old row is cleared to the reset cell (R105 step 5; `s.pageLeft t w` in
Sys2Proof/Safety.lean says what leaves with the page). With no initial page, or one already shown, it is
EMPTY; else it composes that page behind those clears (`t.composeHanded`; assumption 36 where the list
fills). A height of 0 leaves no window. Other windows stand. That the clears of the old rows are handed
over from the top row down is the model's choice (assumption 47). -/
def Obligations.WindowRecordOpens : Prop :=
  ∀ (rx : Rx) (rec : WindowRecord) (s : State) (w : Nat) (before : List Burst), s.hears rx true →
    s.allows rx.origin → s.windowsSound → w = rec.window.toNat → w ≤ 7 →
    (rec.height ≠ 0 → rec.top.toNat + rec.height.toNat ≤ freeRows s.straps ∧
      (rec.page.toNat ≤ 31 ∨ rec.page = 255) ∧
      ∀ x v, (x, v) ∈ s.win → x ≠ w →
        rec.top.toNat + rec.height.toNat ≤ v.top ∨ v.top + v.height ≤ rec.top.toNat) →
    before = s.burstsLeft w ++
      ((List.range (s.window w).height).map fun k =>
        { kind := .oldRowClear, row := (s.window w).top + k, column := 0
          cells := List.replicate (cols s.straps)
            { glyph := 0x20, fg := 7, bg := 0, blink := false, underline := false, field := none }
          owner := .layout, after := .nothing }).take (1024 - (s.burstsLeft w).length) →
    ∃ t v, exec (.window rx rec) s = .next t ∧ v = t.window w ∧ s.pageLeft t w ∧
      v.height = rec.height.toNat ∧ v.carousel = .stopped ∧ v.advanceDue = false ∧
      (rec.height ≠ 0 → v.top = rec.top.toNat ∧ v.background = rec.background) ∧
      (0 < (s.window w).height → v.override = .none) ∧
      (rec.height = 0 ∨ rec.page = 255 ∨ (∃ x, x ≠ w ∧ s.shows x rec.page.toNat) →
        v.state = .empty ∧ v.page = none ∧ t.cpl.bursts = before ∧
          t.pnt.queue = s.pnt.queue) ∧
      (rec.height ≠ 0 → rec.page.toNat ≤ 31 → (∀ x, x ≠ w → ¬ s.shows x rec.page.toNat) →
        t.composeHanded w rec.page.toNat before s.pnt.queue) ∧
      (∀ x, x ≠ w → t.window x = s.window x) ∧
      t = { (s.arrived rx).claimed rx.origin with
            pnt := t.pnt, win := t.win
            cpl := { s.cpl with bursts := t.cpl.bursts, granted := t.cpl.granted } }

/-- R95, R106 to R109: POLICY, PALETTE, CONDLABEL and CAROUSEL records that pass their tests write
their entry of their own table, a hold above 1023 taken as 1023 and a dwell of 0 as 1; no other
entry and no other part of the state changes but the layout origin. -/
def Obligations.SmallTablesWritten : Prop :=
  (∀ (rx : Rx) (rec : PolicyRecord) (m : PolicyMode) (s : State), s.hears rx true →
    s.allows rx.origin → rec.policy.toNat ≤ 7 → readMode rec.mode = some m →
    ∃ t, exec (.policy rx rec) s = .next t ∧
      t.policy rec.policy.toNat =
        { mode := m, hold := min rec.hold.toNat 1023, upFg := rec.upFg, upBg := rec.upBg,
          downFg := rec.downFg, downBg := rec.downBg, upStick := rec.upStick,
          downStick := rec.downStick, touch := rec.touch, touchFg := rec.touchFg,
          touchBg := rec.touchBg, blinkFlash := rec.blinkFlash } ∧
      (∀ i, i ≠ rec.policy.toNat → t.policy i = s.policy i) ∧
      t = { (s.arrived rx).claimed rx.origin with
            lay := { s.lay with policies := t.lay.policies } }) ∧
  (∀ (rx : Rx) (rec : PaletteRecord) (s : State), s.hears rx true → s.allows rx.origin →
    rec.entry.toNat ≤ 15 →
    ∃ t, exec (.palette rx rec) s = .next t ∧
      (∀ c : Colour, t.rgb c =
        if c.toNat = rec.entry.toNat then { red := rec.red, green := rec.green, blue := rec.blue }
        else s.rgb c) ∧
      t = { (s.arrived rx).claimed rx.origin with lay := { s.lay with palette := t.lay.palette } }) ∧
  (∀ (rx : Rx) (rec : CondLabelRecord) (s : State), s.hears rx true → s.allows rx.origin →
    rec.code.toNat ≤ 15 →
    ∃ t, exec (.condlabel rx rec) s = .next t ∧
      (∀ c, condLabel t.lay.condLabels c =
        if c = rec.code.toNat then rec.chars else condLabel s.lay.condLabels c) ∧
      t = { (s.arrived rx).claimed rx.origin with
            lay := { s.lay with condLabels := t.lay.condLabels } }) ∧
  (∀ (rx : Rx) (rec : CarouselRecord) (p : Option Nat) (s : State), s.hears rx true →
    s.allows rx.origin → rec.window.toNat ≤ 7 → rec.step.toNat ≤ 15 →
    readPageOrNone rec.page = some p →
    ∃ t, exec (.carousel rx rec) s = .next t ∧
      (∀ w i, i ≤ 15 → t.stepAt w i =
        if w = rec.window.toNat ∧ i = rec.step.toNat then
          { page := p, dwell := max 1 rec.dwell.toNat }
        else s.stepAt w i) ∧
      t = { (s.arrived rx).claimed rx.origin with lay := { s.lay with steps := t.lay.steps } })

/-- R54 to R56, R95, R110, R111, R199, R205: a CRAWLPROG record writes its entry and the key it names
has a record, the records following the references (`recordsFollow` in Sys2Proof/Safety.lean); a GLOBAL
record writes the global record with its interval the largest power of two at most the value sent
(within 1 to 64), its blink code at most 6 and its duty within 1 to 15, and a stale limit of 0 ends
every stale deadline. It rebuilds a status row text that a lap start has built; that it builds none
before that is the model's reading of R199 beside R205 (assumption 40). -/
def Obligations.ProgramAndGlobalWritten : Prop :=
  (∀ (rx : Rx) (rec : CrawlProgRecord) (s : State), s.hears rx true → s.allows rx.origin →
    s.recordsMatch → rec.entry.toNat ≤ 31 → s.dir.records.length < 256 →
    ∃ t, exec (.crawlprog rx rec) s = .next t ∧
      t.progEntry rec.entry.toNat =
        { key := if rec.keyPresent then some rec.key else none, label := rec.chars.take 8 } ∧
      (∀ i, i ≠ rec.entry.toNat → t.progEntry i = s.progEntry i) ∧
      (rec.keyPresent = true → (t.record? rec.key).isSome = true) ∧
      s.recordsFollow t ((s.progEntry rec.entry.toNat).key.toList ++
        (if rec.keyPresent then [rec.key] else [])) ∧
      t.crw = s.crw ∧
      t.lay = { s.lay with prog := t.lay.prog } ∧
      t = { (s.arrived rx).claimed rx.origin with lay := t.lay, dir := t.dir }) ∧
  (∀ (rx : Rx) (rec : GlobalRecord) (s : State), s.hears rx true → s.allows rx.origin →
    ∃ t g, exec (.global rx rec) s = .next t ∧ t.lay = { s.lay with global := g } ∧
      g.staleLimit = rec.staleLimit.toNat ∧ g.staleFg = rec.staleFg ∧ g.gapFg = rec.gapFg ∧
      g.crawlFg = rec.crawlFg ∧ g.crawlBg = rec.crawlBg ∧
      (∃ k, k ≤ 6 ∧ g.interval = 2 ^ k ∧ g.interval ≤ max 1 rec.interval.toNat ∧
        (k < 6 → rec.interval.toNat < 2 * g.interval)) ∧
      g.blinkCode = min rec.blinkCode.toNat 6 ∧ g.blinkDuty = max 1 (min rec.blinkDuty.toNat 15) ∧
      [g.sync, g.clash, g.silent, g.orphan, g.drop, g.underrun, g.foreign] =
        [rec.sync, rec.clash, rec.silent, rec.orphan, rec.drop, rec.underrun, rec.foreign].map
          (fun c => if c = 0 then .none else if c = 1 then .row else if c = 2 then .parcel else .both) ∧
      (∀ k, t.record? k = (s.record? k).map fun r =>
        if rec.staleLimit = 0 then { r with deadline := none } else r) ∧
      t.crw = s.crw ∧ t.pnt = s.pnt ∧ t.win = s.win ∧
      (s.straps.srow = true → s.sts.text ≠ [] → t.cpl = { s.cpl with statusReq := true } ∧
        t.sts = { (s.arrived rx).sts with text := statusText t } ∧
        t.sts.text.length = cols s.straps) ∧
      (s.straps.srow = false ∨ s.sts.text = [] → t.cpl = s.cpl ∧ t.sts = (s.arrived rx).sts))

/-- R21, R94, R203: a COMMAND of a code outside 1..10 and a LAYOUT record of a kind outside 1..9 are
refused with RANGE: the refusal becomes the last refusal and is counted, and nothing else changes
but the layout origin a LAYOUT claims. R96 to R98: so is a FIELD record refused that fails a test, with
RANGE, OVERLAP or FULL in that order. R101, R102, R104, R106 to R110, R134, R137, R150 to R154: so is
every other record or command that meets a RANGE or FULL test of its block, which `s.Refuses` lists
(Sys2Proof/Safety.lean). -/
def Obligations.BadCodesRefused : Prop :=
  (∀ (rx : Rx) (code : BadCommandCode) (s : State), s.hears rx true → s.allows rx.origin →
    ∃ t, exec (.commandBadCode rx code) s = .next t ∧
      t = { s.arrived rx with
        sts := (s.arrived rx).sts.refused 2 (badCommandCode code) .range rx.origin
          t.sts.counters.refusals } ∧
      (s.sts.counters.refusals ≠ BitVec.allOnes 32 →
        t.sts.counters.refusals = s.sts.counters.refusals + 1)) ∧
  (∀ (rx : Rx) (kind : BadRecordKind) (s : State), s.hears rx true → s.allows rx.origin →
    ∃ t, exec (.layoutBadKind rx kind) s = .next t ∧
      t = { (s.arrived rx).claimed rx.origin with
        sts := (s.arrived rx).sts.refused 7 (badRecordKind kind) .range rx.origin
          t.sts.counters.refusals } ∧
      (s.sts.counters.refusals ≠ BitVec.allOnes 32 →
        t.sts.counters.refusals = s.sts.counters.refusals + 1)) ∧
  (∀ (rx : Rx) (rec : FieldRecord) (start : Nat) (reason : Reason) (s : State), s.hears rx true →
    s.allows rx.origin → start = (if rec.atPointer then s.lay.pointer else rec.start.toNat) →
    (reason = .range ∧
        (rec.count ≠ 1 ∧ rec.count ≠ 2 ∨ 512 < start + rec.count.toNat ∨
          ∃ e, (e = rec.first ∨ rec.count = 2 ∧ e = rec.second) ∧ e.width ≠ 0 ∧
            (cols s.straps ≤ e.column.toNat ∨ e.item = 15 ∨ 5 < e.format.toNat ∨ e.subst = 3)) ∨
      ∃ l, readEntries (cols s.straps) rec = some l ∧ start + l.length ≤ 512 ∧
        (reason = .overlap ∧ overlaps s.lay.fields (fieldRun start l) = true ∨
          reason = .full ∧ overlaps s.lay.fields (fieldRun start l) = false ∧
            256 < (namedKeys { s.lay with
              fields := (fieldRun start l).foldl changeTable s.lay.fields }).length)) →
    ∃ t, exec (.field rx rec) s = .next t ∧
      t = { (s.arrived rx).claimed rx.origin with
        sts := (s.arrived rx).sts.refused 7 1 reason rx.origin t.sts.counters.refusals } ∧
      (s.sts.counters.refusals ≠ BitVec.allOnes 32 →
        t.sts.counters.refusals = s.sts.counters.refusals + 1)) ∧
  (∀ (i : Instr) (rx : Rx) (kind code : Nibble) (reason : Reason) (s : State),
    i.checked = some (rx, kind, code) → s.hears rx true → s.allows rx.origin →
    s.Refuses i reason →
    ∃ t, exec i s = .next t ∧
      t = { (if kind = 7 then (s.arrived rx).claimed rx.origin else s.arrived rx) with
        sts := (s.arrived rx).sts.refused kind code reason rx.origin
          t.sts.counters.refusals } ∧
      (s.sts.counters.refusals ≠ BitVec.allOnes 32 →
        t.sts.counters.refusals = s.sts.counters.refusals + 1))

/-- R32 to R34: every COMMAND and every LAYOUT record of a station other than the layout origin is
refused with FOREIGN, which is latched, counted and reported with its kind and code, and changes
nothing else. -/
def Obligations.ForeignRefused : Prop :=
  ∀ (i : Instr) (rx : Rx) (kind code : Nibble) (o : Station) (s : State),
    i.checked = some (rx, kind, code) → s.hears rx true → s.ptb.origin = some o → o ≠ rx.origin →
    ∃ t, exec i s = .next t ∧
      (s.sts.counters.refusals ≠ BitVec.allOnes 32 →
        t.sts.counters.refusals = s.sts.counters.refusals + 1) ∧
      t = { s.arrived rx with sts := { (s.arrived rx).sts with
        counters := { (s.arrived rx).sts.counters with refusals := t.sts.counters.refusals },
        lastRefusal :=
          some { kind := kind, code := code, reason := .foreign, origin := rx.origin },
        foreignLatch := true } }

/-- R114, R182: LAYOUT CLEAR leaves the Layout store, the directory, the intake, the Painter, the
windows and the crawl at their reset values, releases the layout origin and resets every plane cell
outside the status row; the link, the counts, the marks and the arbiter's turn stand, and with them
the status row text (assumption 43). A granted write lands first and its reports are dropped
(assumption 22). -/
def Obligations.LayoutClearResets : Prop :=
  ∀ (rx : Rx) (s : State), s.hears rx true → s.allows rx.origin →
    ∃ t, exec (.layoutClear rx) s = .next t ∧ t.ptb = { s.ptb with origin := none } ∧ t.inq = [] ∧
      t.dir = { records := [], refresh := [] } ∧ t.lay = State.reset.lay ∧ t.pnt = State.reset.pnt ∧
      t.win = [] ∧ t.crw.hold = none ∧ t.crw.queue = [] ∧ t.crw.cursor = 0 ∧
      t.crw.stepDue = s.crw.stepDue ∧ t.crw.handoffDue = s.crw.handoffDue ∧
      t.crw.row.length = (if (role s.straps).hasRow then cols s.straps else 0) ∧
      (∀ c ∈ t.crw.row, c = { glyph := 0x20, fg := 15, bg := 0, blink := false }) ∧
      t.cpl.bursts = [] ∧ t.cpl.granted = none ∧ t.cpl.turn = s.cpl.turn ∧
      t.cpl.crawlReq = s.cpl.crawlReq ∧ t.cpl.statusReq = s.cpl.statusReq ∧
      (∀ row column, column < 256 → some row ≠ statusRow s.straps →
        t.cell row column = { glyph := 0x20, fg := 7, bg := 0, blink := false, underline := false,
                              field := none }) ∧
      (∀ row column, column < 256 → some row = statusRow s.straps → s.cpl.granted = none →
        t.cell row column = s.cell row column) ∧
      t.lnk = (s.arrived rx).lnk ∧ t.sts = (s.arrived rx).sts ∧ t.straps = s.straps

/-! ## Windows -/

/-- R124, R133, R140 to R142, R146, R150, R179: a SHOW of a page no other window shows pins a RUNNING
carousel with its step and dwell and composes the page in the window, whose own page it leaves alone.
The page that was there is abandoned or released and the new compose handed over behind what is left of
the burst list (`s.composeBegun t w p` in Sys2Proof/Safety.lean); a list full before the last burst
begins the FIELDS phase at once (assumption 36). R141: a compose hands over one row clear for each row
of the band from the top down, then the label runs of the page above the window's height in ascending
run index, the last of them to be followed by the FIELDS phase. A page that another window shows is
refused BUSY. Other windows, the layout and the directory stand. -/
def Obligations.ShowComposes : Prop :=
  (∀ (rx : Rx) (window page : Byte) (s : State), s.hears rx true → s.allows rx.origin →
    s.windowsSound → window.toNat ≤ 7 → page.toNat ≤ 31 → 0 < (s.window window.toNat).height →
    (∀ w, w ≠ window.toNat → ¬ s.shows w page.toNat) →
    ∃ t v, exec (.showPage rx window page) s = .next t ∧ v = t.window window.toNat ∧
      v.page = some page.toNat ∧
      v.carousel = (if (s.window window.toNat).carousel = .running then .pinned
        else (s.window window.toNat).carousel) ∧
      v.step = (s.window window.toNat).step ∧ v.dwell = (s.window window.toNat).dwell ∧
      v.top = (s.window window.toNat).top ∧ v.height = (s.window window.toNat).height ∧
      v.background = (s.window window.toNat).background ∧
      v.override = (s.window window.toNat).override ∧
      ((s.window window.toNat).page ≠ some page.toNat →
        s.composeBegun t window.toNat page.toNat) ∧
      ((s.window window.toNat).page = some page.toNat →
        v.state = (s.window window.toNat).state ∧ v.compose = (s.window window.toNat).compose ∧
          t.cpl = s.cpl ∧ t.pnt = s.pnt) ∧
      (∀ w, w ≠ window.toNat → t.window w = s.window w) ∧
      t = { s.arrived rx with pnt := t.pnt, win := t.win, cpl := t.cpl }) ∧
  (∀ (w p : Nat) (s : State) (v : Window), v = s.window w →
    composeBursts s w p =
      (List.range v.height).map (fun k =>
        { kind := .rowClear, row := v.top + k, column := 0
          cells := List.replicate (cols s.straps)
            { glyph := 0x20, fg := 7, bg := v.background, blink := false, underline := false,
              field := none }
          owner := .window w, after := .nothing }) ++
      (s.lay.labels.filter fun e => decide (e.2.page = p ∧ e.2.row < v.height)).map (fun e =>
        { kind := .label, row := v.top + e.2.row, column := e.2.column
          cells := e.2.glyphs.map fun g =>
            { glyph := g, fg := e.2.fg, bg := e.2.bg, blink := e.2.blink, underline := false,
              field := none }
          owner := .window w, after := .nothing })) ∧
  (∀ (a : After) (l : List Burst) (b : Burst),
    closeLast a (l ++ [b]) = l ++ [{ b with after := a }]) ∧
  (∀ (rx : Rx) (window page : Byte) (w : Nat) (s : State), s.hears rx true → s.allows rx.origin →
    s.windowsSound → window.toNat ≤ 7 → page.toNat ≤ 31 → 0 < (s.window window.toNat).height →
    w ≠ window.toNat → s.shows w page.toNat →
    ∃ t, exec (.showPage rx window page) s = .next t ∧
      t.sts.lastRefusal = some { kind := 2, code := 1, reason := .busy, origin := rx.origin } ∧
      t = { s.arrived rx with sts := t.sts })

/-- R147, R149, R151, R152: RELEASE of a PINNED carousel sets it RUNNING. It resumes the interrupted
step with the dwell it had left, composing its page where the window shows another. A step past the
program's end or a dwell of 0 takes the carousel on as a dwell expiry does, as does, with one skip
reported, a page that another window shows: FROZEN sets advance-due, otherwise the carousel advances
(`advanced` in Sys2Proof/Safety.lean; assumption 12). With a program of no steps it is STOPPED at step
0, and a carousel not PINNED stands. RUN of a STOPPED one selects a step from step 0 on (`selected`), and
stands without steps; one that is not STOPPED stands. Two clauses are the model's choices: that a
selection which skips every step clears advance-due (assumption 30), and that a program of no steps
leaves the remaining dwell and clears advance-due (assumption 39). -/
def Obligations.CarouselStartsAndResumes : Prop :=
  (∀ (rx : Rx) (window : Byte) (w : Nat) (u : Window) (s : State), s.hears rx true →
    s.allows rx.origin → s.windowsSound → w = window.toNat → w ≤ 7 → u = s.window w →
    ∃ t v, exec (.release rx window) s = .next t ∧ v = t.window w ∧
      (u.carousel ≠ .pinned → t = s.arrived rx) ∧
      (u.carousel = .pinned →
        (s.programLength w = 0 →
          v = { u with
            carousel := .stopped, step := 0, advanceDue := false, dwellDue := false } ∧
          t = { s.arrived rx with win := t.win }) ∧
        (∀ q, u.step < s.programLength w → u.dwell ≠ 0 → (s.stepAt w u.step).page = some q →
          (∀ x, x ≠ w → ¬ s.shows x q) →
          v.carousel = .running ∧ v.page = some q ∧ v.step = u.step ∧ v.dwell = u.dwell ∧
          (u.page = some q →
            v = { u with carousel := .running } ∧ t = { s.arrived rx with win := t.win }) ∧
          (u.page ≠ some q → s.composeBegun t w q) ∧
          t = { s.arrived rx with pnt := t.pnt, win := t.win, cpl := t.cpl }) ∧
        (0 < s.programLength w → (s.programLength w ≤ u.step ∨ u.dwell = 0) →
          (u.state = .frozen →
            v = { u with
              carousel := .running, dwell := 0, advanceDue := true, dwellDue := false } ∧
            t = { s.arrived rx with win := t.win }) ∧
          (u.state ≠ .frozen →
            ((s.arrived rx).modWindow w fun v =>
              { v with carousel := .running, dwell := 0 }).advanced t w)) ∧
        (∀ q x, u.step < s.programLength w → u.dwell ≠ 0 →
          (s.stepAt w u.step).page = some q → x ≠ w → s.shows x q →
          (u.state = .frozen →
            v = { u with carousel := .running, advanceDue := true, dwellDue := false } ∧
            t = { (s.arrived rx).tallySkip with win := t.win } ∧
            t.sts.tallies.skips.toNat = min 65535 (s.sts.tallies.skips.toNat + 1)) ∧
          (u.state ≠ .frozen →
            ((s.arrived rx).tallySkip.modWindow w fun v =>
              { v with carousel := .running }).advanced t w))) ∧
      (∀ x, x ≠ w → t.window x = s.window x)) ∧
  (∀ (rx : Rx) (window : Byte) (w : Nat) (u : Window) (s : State), s.hears rx true →
    s.allows rx.origin → s.windowsSound → w = window.toNat → w ≤ 7 → u = s.window w →
    0 < u.height →
    ∃ t v, exec (.run rx window) s = .next t ∧ v = t.window w ∧
      (u.carousel ≠ .stopped ∨ s.programLength w = 0 → t = s.arrived rx) ∧
      (u.carousel = .stopped → 0 < s.programLength w →
        ((s.arrived rx).modWindow w fun v => { v with carousel := .running }).selected t w 0) ∧
      (∀ q, u.carousel = .stopped → (s.stepAt w 0).page = some q →
        (∀ x, x ≠ w → ¬ s.shows x q) →
        v.carousel = .running ∧ v.page = some q ∧ v.step = 0 ∧
        v.dwell = 16 * (s.stepAt w 0).dwell ∧ v.advanceDue = false ∧
        (u.page ≠ some q → s.composeBegun t w q) ∧ t.sts = (s.arrived rx).sts) ∧
      (∀ x, x ≠ w → t.window x = s.window x))

/-- R153: HALT stops the carousel at step 0 with no dwell and no advance due, whatever its state,
and the window keeps its page, its state and its compose; an operand above 7 is refused with RANGE.
-/
def Obligations.HaltStops : Prop :=
  ∀ (rx : Rx) (window : Byte) (s : State), s.hears rx true → s.allows rx.origin →
    ∃ t, exec (.halt rx window) s = .next t ∧
      (window.toNat ≤ 7 →
        t.window window.toNat =
          { s.window window.toNat with
            carousel := .stopped, step := 0, dwell := 0, advanceDue := false, dwellDue := false } ∧
        (∀ w, w ≠ window.toNat → t.window w = s.window w) ∧
        t = { s.arrived rx with win := t.win }) ∧
      (7 < window.toNat →
        t.sts.lastRefusal = some { kind := 2, code := 4, reason := .range, origin := rx.origin } ∧
          t = { s.arrived rx with sts := t.sts })

/-- R134: FREEZE by the state of the window: SHOWING becomes FROZEN and CLEAN, COMPOSING takes a
freeze request, FROZEN and EMPTY stand; an operand above 7 is refused with RANGE. It writes and
enqueues nothing. -/
def Obligations.FreezeByState : Prop :=
  ∀ (rx : Rx) (window : Byte) (s : State), s.hears rx true → s.allows rx.origin →
    ∃ t, exec (.freeze rx window) s = .next t ∧
      (window.toNat ≤ 7 →
        ((s.window window.toNat).state = .showing →
          t.window window.toNat =
            { s.window window.toNat with state := .frozen, dirty := false }) ∧
        ((s.window window.toNat).state = .composing →
          t.window window.toNat = { s.window window.toNat with freezeReq := true }) ∧
        ((s.window window.toNat).state = .frozen ∨ (s.window window.toNat).state = .empty →
          t.window window.toNat = s.window window.toNat) ∧
        (∀ w, w ≠ window.toNat → t.window w = s.window w) ∧
        t = { s.arrived rx with win := t.win }) ∧
      (7 < window.toNat →
        t.sts.lastRefusal = some { kind := 2, code := 5, reason := .range, origin := rx.origin } ∧
          t = { s.arrived rx with sts := t.sts })

/-- R136, R149, R154: THAW makes a FROZEN window SHOWING and, when its page is DIRTY, enqueues its
visible fields; with an advance due the carousel then advances (`advanced` in Sys2Proof/Safety.lean).
Two clauses of that advance are the model's choices: that advance-due is cleared when all steps are
skipped (assumption 30), and that a program of no steps leaves the remaining dwell and clears advance-due
(assumption 39). THAW clears a freeze request in COMPOSING and changes nothing in SHOWING and EMPTY. `u`
is the state that the thaw leaves before any advance. -/
def Obligations.ThawByState : Prop :=
  ∀ (rx : Rx) (window : Byte) (w : Nat) (s : State), s.hears rx true → s.allows rx.origin →
    s.windowsSound → w = window.toNat → w ≤ 7 →
    ∃ t u, exec (.thaw rx window) s = .next t ∧
      ((s.window w).state = .frozen → u = unfreeze w (s.arrived rx) ∧
        u.window w = { s.window w with state := .showing, dirty := false } ∧
        ((s.window w).dirty = false → u.pnt = s.pnt) ∧
        ((s.window w).dirty = true →
          (∀ i ∈ s.visible w, ∃ q ∈ u.pnt.queue, q.index = i ∧
            (q.kind = .thaw ∨ q.kind = .initial)) ∧
          (∀ q ∈ u.pnt.queue, q ∈ s.pnt.queue ∨ q.index ∈ s.visible w ∧ q.kind = .thaw)) ∧
        ((s.window w).advanceDue = false → t = u) ∧
        ((s.window w).advanceDue = true → u.advanced t w)) ∧
      ((s.window w).state ≠ .frozen → u = t) ∧
      ((s.window w).state = .composing →
        u.window w = { s.window w with freezeReq := false } ∧ u.pnt = s.pnt) ∧
      ((s.window w).state = .showing ∨ (s.window w).state = .empty → u = s.arrived rx) ∧
      (∀ x, x ≠ w → u.window x = s.window x) ∧
      u = { s.arrived rx with pnt := { s.pnt with queue := u.pnt.queue }, win := u.win }

/-- R137: OVERRIDE sets the window's mode, whatever its state, and enqueues every visible field of a
page it shows; a mode above 2 is refused with RANGE. -/
def Obligations.OverrideRepaints : Prop :=
  ∀ (rx : Rx) (window mode : Byte) (s : State), s.hears rx true → s.allows rx.origin →
    window.toNat ≤ 7 →
    ∃ t, exec (.override rx window mode) s = .next t ∧
      (mode.toNat ≤ 2 →
        t.window window.toNat =
          { s.window window.toNat with
            override := if mode = 0 then .none else if mode = 1 then .dash else .test } ∧
        (∀ w, w ≠ window.toNat → t.window w = s.window w) ∧
        ((s.window window.toNat).state ≠ .empty →
          (∀ i ∈ s.visible window.toNat, ∃ q ∈ t.pnt.queue, q.index = i) ∧
            (∀ q ∈ s.pnt.queue, q ∈ t.pnt.queue) ∧
            (∀ q ∈ t.pnt.queue,
              q ∈ s.pnt.queue ∨ q.index ∈ s.visible window.toNat ∧ q.kind = .repaint)) ∧
        ((s.window window.toNat).state = .empty → t.pnt = s.pnt) ∧
        t = { s.arrived rx with pnt := { s.pnt with queue := t.pnt.queue }, win := t.win }) ∧
      (2 < mode.toNat →
        t.sts.lastRefusal = some { kind := 2, code := 7, reason := .range, origin := rx.origin } ∧
          t = { s.arrived rx with sts := t.sts })

/-- R147 to R149: a dwell that runs out sets advance-due in a FROZEN window, which keeps its page; in
any other it advances the carousel: `advanced` in Sys2Proof/Safety.lean says how a program of no steps
stops it (assumption 39), and how else the next step is selected past those whose page another window
shows, and its page composed (assumption 30 where all are skipped). That the last 1 of a dwell is
counted down here is the model's reading (assumption 27). -/
def Obligations.DwellExpires : Prop :=
  ∀ (window : BitVec 3) (w : Nat) (u : Window) (s : State), s.resetHeld = false → s.windowsSound →
    w = window.toNat → u = s.window w → u.carousel = .running → u.dwell = 1 → u.dwellDue = true →
    u.advanceDue = false → u.state ≠ .composing →
    ∃ t, exec (.dwellExpiry window) s = .next t ∧
      (u.state = .frozen →
        t.window w = { u with dwell := 0, dwellDue := false, advanceDue := true } ∧
          (∀ x, x ≠ w → t.window x = s.window x) ∧ t = { s with win := t.win }) ∧
      (u.state ≠ .frozen →
        (s.modWindow w fun v => { v with dwell := 0, dwellDue := false }).advanced t w)

/-! ## Painter -/

/-- R106, R118, R121, R122: the service of a field that shows and is not held back takes the head entry
off the queue and hands the port a burst of exactly the field's cells in its window, each carrying the
field's colours and index, with the underline exactly under a condition text. The text is by the first
source of R121 that applies: dashes or the field index under an override, dashes or spaces under a
substitution, the condition text, the field text. The burst captures what the commit will need
(assumption 28): the value; for a THAW paint and an ORDINARY one of the field's own text the direction
from the last value painted, otherwise none; and the mode, hold and touch of the field's policy. -/
def Obligations.PaintServiceMakesBurst : Prop :=
  ∀ (s : State) (q : PaintReq) (rest : List PaintReq) (f : Field) (w : Nat) (v : Window),
    s.resetHeld = false → s.pnt.burst = none → s.pnt.queue = q :: rest →
    Tab.look q.index s.lay.fields = some f → s.showing f.page = some (w, v) → f.row < v.height →
    v.state ≠ .frozen →
    (q.kind = .ordinary → ∀ last, (s.paintState q.index).lastPaint = some last →
      f.throttle ≤ (s.lnk.sweep - last).toNat) →
    ∃ t b, exec .paintService s = .next t ∧ t.pnt.burst = some b ∧ t.pnt.queue = rest ∧
      b.index = q.index ∧ b.kind = q.kind ∧ b.stage = .waiting ∧ b.page = f.page ∧
      b.unbound = false ∧ b.released = false ∧
      b.dir =
        (if q.kind = .thaw ∨ q.kind = .ordinary ∧ (b.textKind = .value ∨ b.textKind = .condition) then
          direction (s.paintState q.index).lastValue b.value
        else .none) ∧
      b.mode = (s.policy f.policy).mode ∧ b.hold = (s.policy f.policy).hold ∧
      b.touch = (s.policy f.policy).touch ∧ b.row = v.top + f.row ∧
      b.column = f.column ∧ b.cells.length = f.width ∧
      (∀ c ∈ b.cells, c.fg = f.fg ∧ c.bg = f.bg ∧ c.blink = f.blink ∧ c.field = some q.index ∧
        c.underline = decide (b.textKind = .condition)) ∧
      b.value = fieldValue f.selector f.format (s.items f.key) ∧
      (v.override = .dash → b.textKind = .overridden ∧ ∀ c ∈ b.cells, c.glyph = 0x2D) ∧
      (v.override = .test → b.textKind = .overridden ∧
        b.cells.map Cell.glyph =
          (if (decimal q.index).length ≤ f.width then
            List.replicate (f.width - (decimal q.index).length) 0x20 ++
              (decimal q.index).map (BitVec.setWidth 9)
          else List.replicate f.width 0x23)) ∧
      (v.override = .none → f.subst = .dash → b.textKind = .substituted ∧
        ∀ c ∈ b.cells, c.glyph = 0x2D) ∧
      (v.override = .none → f.subst = .blank → b.textKind = .substituted ∧
        ∀ c ∈ b.cells, c.glyph = 0x20) ∧
      (v.override = .none → f.subst = .live →
        (∀ code, takesCondition f.selector = true →
          storedValue (s.items f.key) .condition = .present (.code code) → code ≠ 0 →
          isBlank (condLabel s.lay.condLabels code) = false →
          b.textKind = .condition ∧
            b.cells.map Cell.glyph =
              (condText s.lay.condLabels code f.width f.right).map (BitVec.setWidth 9)) ∧
        ((takesCondition f.selector = false ∨
            ∀ code, storedValue (s.items f.key) .condition = .present (.code code) →
              code = 0 ∨ isBlank (condLabel s.lay.condLabels code) = true) →
          b.textKind = .value ∧
            b.cells.map Cell.glyph =
              (fieldText f s.lay.condLabels (s.items f.key)).map (BitVec.setWidth 9))) ∧
      t = { s with pnt := { s.pnt with queue := rest, burst := some b } }

/-- R119, R120, R135, R143: an entry leaves the queue and paints nothing when its index holds no field,
when no window shows the field's page and when the row is not below the window's height; one of a
FROZEN window marks its page DIRTY. An INITIAL entry so skipped is reported as done (`initialReported`
in Sys2Proof/Safety.lean). An ORDINARY one inside the throttle sets pending, due the throttle after the
last paint, unless it is set already. None of these writes or starts a burst, and with a burst in
flight or an empty queue nothing is serviced (R118). -/
def Obligations.PaintServiceHoldsBack : Prop :=
  (∀ (s : State) (q : PaintReq) (rest : List PaintReq), s.resetHeld = false → s.windowsAgree →
    s.pnt.burst = none → s.pnt.queue = q :: rest →
    (∀ f w v, Tab.look q.index s.lay.fields = some f → s.showing f.page = some (w, v) →
      v.height ≤ f.row) →
    ∃ t, exec .paintService s = .next t ∧ (q.kind = .initial → s.initialReported t q.index) ∧
      (q.kind ≠ .initial → t.win = s.win) ∧
      t = { s with pnt := { s.pnt with queue := rest }, win := t.win }) ∧
  (∀ (s : State) (q : PaintReq) (rest : List PaintReq) (f : Field) (w : Nat) (v : Window),
    s.resetHeld = false → s.windowsAgree → s.pnt.burst = none → s.pnt.queue = q :: rest →
    Tab.look q.index s.lay.fields = some f →
    s.showing f.page = some (w, v) → f.row < v.height → v.state = .frozen →
    ∃ t, exec .paintService s = .next t ∧ t.window w = { s.window w with dirty := true } ∧
      (q.kind ≠ .initial → ∀ u, u ≠ w → t.window u = s.window u) ∧
      (q.kind = .initial →
        (s.modWindow w fun v => { v with dirty := true }).initialReported t q.index) ∧
      t = { s with pnt := { s.pnt with queue := rest }, win := t.win }) ∧
  (∀ s : State, s.resetHeld = false → (s.pnt.burst ≠ none ∨ s.pnt.queue = []) →
    exec .paintService s = .next s) ∧
  (∀ (s : State) (q : PaintReq) (rest : List PaintReq) (f : Field) (w : Nat) (v : Window)
    (last : Sweep), s.resetHeld = false → s.pnt.burst = none → s.pnt.queue = q :: rest →
    q.kind = .ordinary → Tab.look q.index s.lay.fields = some f →
    s.showing f.page = some (w, v) → f.row < v.height → v.state ≠ .frozen →
    (s.paintState q.index).lastPaint = some last → (s.lnk.sweep - last).toNat < f.throttle →
    ∃ t, exec .paintService s = .next t ∧ t.pnt.queue = rest ∧ t.pnt.burst = none ∧
      t.paintState q.index =
        { s.paintState q.index with
          pending := some ((s.paintState q.index).pending.getD (last + BitVec.ofNat 32 f.throttle)) } ∧
      (∀ i, i ≠ q.index → t.paintState i = s.paintState i) ∧
      t = { s with pnt := { s.pnt with queue := rest, states := t.pnt.states } })

/-- R126, R128: an ordinary paint committed with its own text moves the stick under STICKY by the
direction, under SIGN by the sign of the value painted, and neither mode moves the flash. -/
def Obligations.StickyAndSignCommit : Prop :=
  ∀ (s : State) (b : PaintBurst), s.resetHeld = false → s.pnt.burst = some b → b.stage = .written →
    b.unbound = false → b.kind = .ordinary → (b.textKind = .value ∨ b.textKind = .condition) →
    ∃ t, exec .paintCommit s = .next t ∧
      (b.mode = .sticky ∨ b.mode = .sign →
        (t.paintState b.index).flash = (s.paintState b.index).flash ∧
          t.pnt.highlights = s.pnt.highlights) ∧
      (b.mode = .sticky → b.dir = .up → (t.paintState b.index).stick = .up) ∧
      (b.mode = .sticky → b.dir = .down → (t.paintState b.index).stick = .down) ∧
      (b.mode = .sticky → b.dir = .equal ∨ b.dir = .none →
        (t.paintState b.index).stick = (s.paintState b.index).stick) ∧
      (b.mode = .sign → sign b.value = .positive → (t.paintState b.index).stick = .up) ∧
      (b.mode = .sign → sign b.value = .negative → (t.paintState b.index).stick = .down) ∧
      (b.mode = .sign → sign b.value = .zero ∨ sign b.value = .none →
        (t.paintState b.index).stick = .none)

/-- R119, R123 to R125, R127, R129, R131, R143, R145: a commit clears the burst and pending and records
the sweep, the text kind and, with its own text, the value. Under FLASH and FLASH_STICKY with a hold
above 0 an UP or DOWN direction, and EQUAL where the policy has touch, sets the flash with its one
highlight entry due at now + hold, and the stick stands; a direction that sets no flash leaves flash,
stick and list, and so does a commit whose page has been released or whose field is not visible (R124;
assumption 13 where the released page is shown again). Under NONE an ordinary commit leaves flash, stick
and list as they are, whatever the direction and the hold (R125). With a hold of 0 FLASH_STICKY moves
the stick. An INITIAL commit leaves no flash and no stick but that of SIGN, a THAW commit no flash and
the stick of the net move; an ORDINARY one under a replaced text changes neither. An INITIAL one is
reported (`initialReported` in Sys2Proof/Safety.lean), and no other changes a window. No other field's
paint state changes but that of an entry expired for want of room. A commit of an index unbound after
the grant is dropped (R124). -/
def Obligations.CommitPaints : Prop :=
  (∀ (s : State) (b : PaintBurst), s.resetHeld = false → s.pnt.burst = some b → b.stage = .written →
    b.unbound = false → s.flashesListed →
    ∃ t p, exec .paintCommit s = .next t ∧ p = t.paintState b.index ∧ t.pnt.burst = none ∧
      p.lastPaint = some s.lnk.sweep ∧ p.pending = none ∧ p.textKind = b.textKind ∧
      (b.kind = .initial ∨ b.kind = .thaw ∨ b.textKind = .value ∨ b.textKind = .condition →
        b.kind ≠ .repaint → p.lastValue = some b.value) ∧
      (b.kind = .repaint ∨
          b.kind = .ordinary ∧ (b.textKind = .substituted ∨ b.textKind = .overridden) →
        p = { s.paintState b.index with
          lastPaint := p.lastPaint, pending := none, textKind := p.textKind } ∧
          t.pnt.highlights = s.pnt.highlights) ∧
      (b.kind = .ordinary → b.textKind = .value ∨ b.textKind = .condition →
        b.mode = .flash ∨ b.mode = .flashSticky →
        (0 < b.hold → b.released = false → (paintSite s b.index).isSome = true →
          b.dir = .up ∨ b.dir = .down ∨ (b.dir = .equal ∧ b.touch = true) →
          p.flash = (if b.dir = .up then .up else if b.dir = .down then .down else .touch) ∧
            p.stick = (s.paintState b.index).stick ∧
            { index := b.index, due := s.lnk.sweep + BitVec.ofNat 32 b.hold } ∈ t.pnt.highlights) ∧
        (b.dir = .none ∨ (b.dir = .equal ∧ b.touch = false) →
          p.flash = (s.paintState b.index).flash ∧ p.stick = (s.paintState b.index).stick ∧
            t.pnt.highlights = s.pnt.highlights) ∧
        (b.released = true ∨ paintSite s b.index = none →
          p.flash = (s.paintState b.index).flash ∧ t.pnt.highlights = s.pnt.highlights ∧
            (0 < b.hold → p.stick = (s.paintState b.index).stick)) ∧
        (b.hold = 0 → p.flash = (s.paintState b.index).flash ∧
          t.pnt.highlights = s.pnt.highlights ∧
          p.stick =
            (if b.mode = .flashSticky ∧ b.dir = .up then .up
            else if b.mode = .flashSticky ∧ b.dir = .down then .down
            else (s.paintState b.index).stick))) ∧
      (b.kind = .ordinary → b.mode = .none →
        p.flash = (s.paintState b.index).flash ∧ p.stick = (s.paintState b.index).stick ∧
          t.pnt.highlights = s.pnt.highlights ∧
          ∀ i, i ≠ b.index → t.paintState i = s.paintState i) ∧
      (b.kind = .initial ∨ b.kind = .thaw →
        p.flash = .none ∧ listed b.index t.pnt.highlights = false ∧
        (b.mode = .sign → p.stick =
          (if sign b.value = .positive then .up else if sign b.value = .negative then .down
          else .none))) ∧
      (b.kind = .initial → b.mode ≠ .sign → p.stick = .none) ∧
      (b.kind = .thaw → b.mode ≠ .sign → p.stick =
        (if (b.mode = .sticky ∨ b.mode = .flashSticky) ∧ b.dir = .up then .up
        else if (b.mode = .sticky ∨ b.mode = .flashSticky) ∧ b.dir = .down then .down
        else (s.paintState b.index).stick)) ∧
      (∀ i, i ≠ b.index → t.paintState i = s.paintState i ∨
        (128 ≤ s.pnt.highlights.length ∧ listed i s.pnt.highlights = true ∧
          (t.paintState i).flash = .none)) ∧
      (b.kind = .initial → s.windowsAgree → s.initialReported t b.index) ∧
      (b.kind ≠ .initial → t.win = s.win) ∧
      t = { s with pnt := { t.pnt with queue := s.pnt.queue }, win := t.win }) ∧
  (∀ (s : State) (b : PaintBurst), s.resetHeld = false → s.pnt.burst = some b → b.stage = .written →
    b.unbound = true →
    exec .paintCommit s = .next { s with pnt := { s.pnt with burst := none } })

/-- R120, R132: at a sweep start every held-back paint whose due sweep is reached is enqueued and
its mark cleared; every highlight entry whose due sweep is reached goes out, its field's flash with
it, the stick taking the direction of the flash under FLASH_STICKY. -/
def Obligations.DuePaintsAndHighlights : Prop :=
  (∀ s : State, s.resetHeld = false → s.canonical →
    ∃ t, exec .pendingRelease s = .next t ∧
      (∀ i, t.paintState i =
        if ∃ due, (s.paintState i).pending = some due ∧ (s.lnk.sweep - due).toNat < 2 ^ 31 then
          { s.paintState i with pending := none }
        else s.paintState i) ∧
      (∀ i : Nat, (∃ q ∈ t.pnt.queue, q.index = i) ↔
        (∃ q ∈ s.pnt.queue, q.index = i) ∨
          ∃ due, (s.paintState i).pending = some due ∧ (s.lnk.sweep - due).toNat < 2 ^ 31) ∧
      (∀ q ∈ t.pnt.queue, q ∈ s.pnt.queue ∨ q.kind = .ordinary) ∧
      (∀ q ∈ s.pnt.queue, q.kind ≠ .repaint → q ∈ t.pnt.queue) ∧
      t = { s with pnt := { s.pnt with queue := t.pnt.queue, states := t.pnt.states } }) ∧
  (∀ s : State, s.resetHeld = false → s.flashesListed →
    ∃ t, exec .highlightExpiry s = .next t ∧
      (∀ h, h ∈ t.pnt.highlights ↔
        h ∈ s.pnt.highlights ∧ ¬ (s.lnk.sweep - h.due).toNat < 2 ^ 31) ∧
      (∀ h ∈ s.pnt.highlights, (s.lnk.sweep - h.due).toNat < 2 ^ 31 →
        (t.paintState h.index).flash = .none ∧
          (t.paintState h.index).stick =
            (if modeOf s.lay h.index = .flashSticky then
              match (s.paintState h.index).flash with
              | .up => .up
              | .down => .down
              | .touch => (s.paintState h.index).stick
              | .none => (s.paintState h.index).stick
            else (s.paintState h.index).stick)) ∧
      (∀ i, (∀ h ∈ s.pnt.highlights, h.index = i → ¬ (s.lnk.sweep - h.due).toNat < 2 ^ 31) →
        t.paintState i = s.paintState i) ∧
      t = { s with pnt := { s.pnt with states := t.pnt.states, highlights := t.pnt.highlights } })

/-! ## Cell plane and display -/

/-- R161, R180, R206: a free port grants a waiting row fetch, then the crawl row, then a painter or
compose burst by turns, then the status row; the turn then names the other of the two. A row fetch
is whole at its grant (assumption 8). -/
def Obligations.PortGrantsInOrder : Prop :=
  ∀ s : State, s.resetHeld = false → s.cpl.granted = none →
    ∃ t, exec .portGrant s = .next t ∧ t.cpl.plane = s.cpl.plane ∧
      (∀ r, s.cpl.fetchReq = some r →
        t.cpl.granted = none ∧ t.cpl.fetchReq = none ∧ t.cpl.nextRow = r + 1 ∧
          t.cpl.crawlReq = s.cpl.crawlReq ∧ t.pnt = s.pnt) ∧
      (∀ r, s.cpl.fetchReq = none → s.cpl.crawlReq = true → crawlRow s.straps = some r →
        t.cpl.granted = some
            { row := r, column := 0, by_ := .crawl,
              cells := s.crw.row.map fun c =>
                { glyph := c.glyph, fg := c.fg, bg := c.bg, blink := c.blink, underline := false,
                  field := none } } ∧
          t.cpl.crawlReq = false ∧ t.cpl.turn = s.cpl.turn) ∧
      (∀ b, s.cpl.fetchReq = none → s.cpl.crawlReq = false → s.pnt.burst = some b →
        b.stage = .waiting → s.cpl.turn = .painter ∨ s.cpl.bursts = [] →
        t.cpl.granted =
            some { row := b.row, column := b.column, cells := b.cells, by_ := .painter } ∧
          t.pnt.burst = some { b with stage := .granted } ∧ t.cpl.turn = .compose ∧
          t.cpl.bursts = s.cpl.bursts) ∧
      (∀ c l, s.cpl.fetchReq = none → s.cpl.crawlReq = false → s.cpl.bursts = c :: l →
        s.cpl.turn = .compose ∨ (∀ b, s.pnt.burst = some b → b.stage ≠ .waiting) →
        t.cpl.granted =
            some { row := c.row, column := c.column, cells := c.cells,
                   by_ := .compose c.owner c.after } ∧
          t.cpl.bursts = l ∧ t.cpl.turn = .painter ∧ t.pnt = s.pnt) ∧
      (∀ r, s.cpl.fetchReq = none → s.cpl.crawlReq = false → s.cpl.bursts = [] →
        (∀ b, s.pnt.burst = some b → b.stage ≠ .waiting) → s.cpl.statusReq = true →
        statusRow s.straps = some r →
        t.cpl.granted = some
            { row := r, column := 0, by_ := .status,
              cells := s.sts.text.map fun c =>
                { glyph := c.code.setWidth 9, fg := if c.alarm then 9 else 15, bg := 1,
                  blink := false, underline := false, field := none } } ∧
          t.cpl.statusReq = false ∧ t.pnt = s.pnt) ∧
      t = { s with pnt := { s.pnt with burst := t.pnt.burst }, cpl := t.cpl }

/-- R178, R181: a granted write that completes leaves exactly its cells in its row and every other
cell of the plane as it was, keeps the plane canonical, and frees the port; the Painter is told that
its burst is written. The cells land at the completion (assumption 8). -/
def Obligations.TransferWritesItsCells : Prop :=
  ∀ (s : State) (w : Write), s.resetHeld = false → s.cpl.granted = some w →
    w.column + w.cells.length ≤ 256 →
    ∃ t, exec .transferComplete s = .next t ∧
      (∀ row column, column < 256 → t.cell row column =
        if row = w.row ∧ w.column ≤ column ∧ column < w.column + w.cells.length then
          w.cells.getD (column - w.column) resetCell
        else s.cell row column) ∧
      (Tab.wf resetCell s.cpl.plane = true → Tab.wf resetCell t.cpl.plane = true) ∧
      t.cpl.granted = none ∧
      (w.by_ = .painter → t.pnt = { s.pnt with
        burst := s.pnt.burst.map fun b => { b with stage := .written } }) ∧
      (w.by_ = .crawl ∨ w.by_ = .status ∨ (∃ o, w.by_ = .compose o .nothing) →
        t = { s with cpl := { s.cpl with plane := t.cpl.plane, granted := none } })

/-- R142, R145: when the last compose burst is written the compose set is every visible field of the
page, each with an INITIAL request; when there is none the window is SHOWING at once, or FROZEN if a
freeze was asked for. R99, R103: after the last burst of a FIELD record its new bindings are requested
INITIAL, after that of a LABEL record REPAINT the fields that meet the run's cells above the height of
the window that shows the page; the windows are those that stand then (assumption 38), and the new
bindings those found on a shown page when the FIELD record was taken (assumption 42). That no other
field is requested then, also where a repainted run has passed over its text, is the model's choice
(assumption 45). -/
def Obligations.LastBurstStartsFields : Prop :=
  (∀ (s : State) (b : Write) (o : Owner) (w p : Nat), s.resetHeld = false → s.cpl.granted = some b →
    b.by_ = .compose o (.fieldsPhase w) → (s.window w).page = some p →
    (s.window w).compose = some .bursts →
    ∃ t, exec .transferComplete s = .next t ∧
      (visibleFields s.lay.fields p (s.window w).height ≠ [] →
        t.window w =
            { s.window w with
              compose := some (.fields (visibleFields s.lay.fields p (s.window w).height)) } ∧
          ∀ i ∈ visibleFields s.lay.fields p (s.window w).height,
            ∃ q ∈ t.pnt.queue, q.index = i ∧ q.kind = .initial) ∧
      (visibleFields s.lay.fields p (s.window w).height = [] →
        t.window w =
          { s.window w with
            state := if (s.window w).freezeReq then .frozen else .showing
            dirty := false, freezeReq := false, compose := none }) ∧
      (∀ q ∈ t.pnt.queue, q ∈ s.pnt.queue ∨
        q.index ∈ visibleFields s.lay.fields p (s.window w).height ∧ q.kind = .initial) ∧
      (∀ u, u ≠ w → t.window u = s.window u) ∧
      t = { s with
        pnt := { s.pnt with queue := t.pnt.queue }, win := t.win
        cpl := { s.cpl with plane := t.cpl.plane, granted := none } }) ∧
  (∀ (s : State) (b : Write) (o : Owner) (l : List Nat), s.resetHeld = false →
    s.cpl.granted = some b → b.by_ = .compose o (.initial l) →
    ∃ t, exec .transferComplete s = .next t ∧
      (∀ i ∈ l, ∃ q ∈ t.pnt.queue, q.index = i ∧ q.kind = .initial) ∧
      (∀ q ∈ t.pnt.queue, q ∈ s.pnt.queue ∨ q.index ∈ l ∧ q.kind = .initial) ∧
      t = { s with
        pnt := { s.pnt with queue := t.pnt.queue }
        cpl := { s.cpl with plane := t.cpl.plane, granted := none } }) ∧
  (∀ (s : State) (b : Write) (o : Owner) (regions : List Region), s.resetHeld = false →
    s.cpl.granted = some b → b.by_ = .compose o (.repaint regions) →
    ∃ t, exec .transferComplete s = .next t ∧
      (∀ i f r w v, Tab.look i s.lay.fields = some f → r ∈ regions → f.page = r.page →
        f.row = r.row → f.column < r.column + r.length → r.column < f.column + f.width →
        s.showing r.page = some (w, v) → r.row < v.height → ∃ q ∈ t.pnt.queue, q.index = i) ∧
      (∀ q ∈ t.pnt.queue, q ∈ s.pnt.queue ∨ q.kind = .repaint ∧
        ∃ f r, (q.index, f) ∈ s.lay.fields ∧ r ∈ regions ∧ f.page = r.page ∧ f.row = r.row ∧
          f.column < r.column + r.length ∧ r.column < f.column + f.width) ∧
      t = { s with
        pnt := { s.pnt with queue := t.pnt.queue }
        cpl := { s.cpl with plane := t.cpl.plane, granted := none } })

/-- R189: a frame start latches the blink phase from the lap index and the blink period code c and
duty k of the global record: ON when the lap index modulo 16 × 2^c is below 2^c × k; the frame's
rows start again and no cell and no other block changes. -/
def Obligations.FrameLatchesBlink : Prop :=
  ∀ s : State, s.resetHeld = false →
    ∃ t, exec .frameStart s = .next t ∧
      (t.cpl.blinkOn = true ↔
        s.lnk.lap.toNat % (16 * 2 ^ s.lay.global.blinkCode) <
          2 ^ s.lay.global.blinkCode * s.lay.global.blinkDuty) ∧
      t.cpl.nextRow = 0 ∧
      t = { s with cpl := { s.cpl with blinkOn := t.cpl.blinkOn, nextRow := 0, fetchReq := none } }

/-- R181, R183 to R190: a row fetch shows each cell of the row due, in the resolved colours of the
field it names, unless a granted write is on that row; then it waits. It changes no cell and no block
but the display's own. In phase ON a field's own text is STALE, GAPPED or ORPHANED in its state's fg,
else in its running flash's pair, else in its stick's fg, else in its base pair; a replaced text is in
its base pair; a mark exchanges fg and bg. Phase OFF hides the fg of a blinking cell and of a running
flash that blinks, and of a non-field cell that blinks. A row fetch is whole at its grant
(assumption 8). -/
def Obligations.RowFetchResolves : Prop :=
  (∀ s : State, s.resetHeld = false → s.cpl.nextRow < rows s.straps →
    ∃ t, exec .rowFetch s = .next t ∧ t.cpl.plane = s.cpl.plane ∧
      ((∀ w, s.cpl.granted = some w → w.row ≠ s.cpl.nextRow) →
        (∀ l, Tab.look s.cpl.nextRow t.cpl.picture = some l → ∀ c : Nat, c < cols s.straps →
          l[c]? = some (showCell s (s.cell s.cpl.nextRow c))) ∧
        (Tab.look s.cpl.nextRow t.cpl.picture).isSome = true ∧
        t.cpl.nextRow = s.cpl.nextRow + 1) ∧
      (∀ w, s.cpl.granted = some w → w.row = s.cpl.nextRow →
        t = { s with cpl := { s.cpl with fetchReq := some s.cpl.nextRow } }) ∧
      t = { s with cpl := t.cpl }) ∧
  (∀ (s : State) (c : Cell) (i : Nat) (f : Field) (r : Record), c.field = some i →
    Tab.look i s.lay.fields = some f → s.record? f.key = some r → s.cpl.blinkOn = true →
    ((s.paintState i).textKind = .value → r.state = .live → (s.paintState i).flash = .up →
      f.localMark = false → r.marks = 0 →
      (showCell s c).fg = (s.policy f.policy).upFg ∧ (showCell s c).bg = (s.policy f.policy).upBg) ∧
    ((s.paintState i).textKind = .value → r.state = .gapped → 0 < r.marks →
      (showCell s c).fg = f.bg ∧ (showCell s c).bg = s.lay.global.gapFg) ∧
    ((s.paintState i).textKind = .overridden → f.localMark = false → r.marks = 0 →
      (showCell s c).fg = f.fg ∧ (showCell s c).bg = f.bg) ∧
    (showCell s c).glyph = c.glyph ∧ (showCell s c).underline = c.underline) ∧
  (∀ (s : State) (c : Cell) (i : Nat) (f : Field) (r : Record) (p : PaintState) (pair : Colour × Colour),
    c.field = some i → Tab.look i s.lay.fields = some f → s.record? f.key = some r →
    p = s.paintState i →
    pair =
      (if p.textKind = .substituted ∨ p.textKind = .overridden then (f.fg, f.bg)
      else if r.state = .stale ∨ r.state = .orphaned then (s.lay.global.staleFg, f.bg)
      else if r.state = .gapped then (s.lay.global.gapFg, f.bg)
      else if p.flash = .up then ((s.policy f.policy).upFg, (s.policy f.policy).upBg)
      else if p.flash = .down then ((s.policy f.policy).downFg, (s.policy f.policy).downBg)
      else if p.flash = .touch then ((s.policy f.policy).touchFg, (s.policy f.policy).touchBg)
      else if p.stick = .up then ((s.policy f.policy).upStick, f.bg)
      else if p.stick = .down then ((s.policy f.policy).downStick, f.bg)
      else (f.fg, f.bg)) →
    (showCell s c).bg = (if f.localMark = true ∨ 0 < r.marks then pair.1 else pair.2) ∧
    (showCell s c).fg =
      (if s.cpl.blinkOn = false ∧ (c.blink = true ∨
          ((s.policy f.policy).blinkFlash = true ∧ p.flash ≠ .none ∧ r.state = .live)) then
        (showCell s c).bg
      else if f.localMark = true ∨ 0 < r.marks then pair.2 else pair.1) ∧
    (showCell s c).fgRgb = s.rgb (showCell s c).fg ∧ (showCell s c).bgRgb = s.rgb (showCell s c).bg) ∧
  (∀ (s : State) (c : Cell), (c.field = none ∨ ∃ i, c.field = some i ∧ Tab.look i s.lay.fields = none) →
    (showCell s c).bg = c.bg ∧
      (showCell s c).fg = (if s.cpl.blinkOn = false ∧ c.blink = true then c.bg else c.fg))

/-! ## Crawl -/

/-- R160 to R163: a crawl step moves every cell one column to the left and puts the new cell in the
last: on a link the held cell sent for this step, else a blank counted as an underrun, and the hold
is empty after it; the row's write is asked for, and a hand-off is due unless the station is mute.
-/
def Obligations.CrawlStepOnLink : Prop :=
  ∀ (s : State) (up : Station) (c : CrawlCell) (row : List CrawlCell), s.resetHeld = false →
    s.crw.stepDue = true → role s.straps = .link up → s.crw.row = c :: row →
    ∃ t new, exec .crawlStep s = .next t ∧ t.crw.row = row ++ [new] ∧ t.crw.hold = none ∧
      (∀ h, s.crw.hold = some h → h.tag = s.stepTag → new = h.cell ∧ t.sts = s.sts) ∧
      ((∀ h, s.crw.hold = some h → h.tag ≠ s.stepTag) →
        new = { glyph := 0x20, fg := s.lay.global.crawlFg, bg := s.lay.global.crawlBg,
                blink := false } ∧
        (s.sts.counters.underLate ≠ BitVec.allOnes 32 →
          t.sts.counters.underLate = s.sts.counters.underLate + 1)) ∧
      t.cpl = { s.cpl with crawlReq := true } ∧ t.crw.handoffDue = decide (s.straps.sn ≠ 0) ∧
      t.crw.stepDue = false ∧ t.crw.queue = s.crw.queue ∧
      t = { s with crw := t.crw, cpl := t.cpl, sts := t.sts }

/-- R162, R171: on a head the new cell is the queue's head cell, after a refill where the queue
holds fewer cells than the plane has columns: the quote entry of the next keyed program entry from the
cursor on joins the queue first. With a queue at least that long, or no keyed entry, the rest of the
queue stands; with an empty queue and no keyed program entry a blank enters, tallied as idle. -/
def Obligations.CrawlStepOnHead : Prop :=
  (∀ (s : State) (c new : CrawlCell) (row rest : List CrawlCell), s.resetHeld = false →
    s.crw.stepDue = true → role s.straps = .head → s.crw.row = c :: row →
    s.crw.queue = new :: rest →
    (cols s.straps ≤ s.crw.queue.length ∨ ∀ i, i < 32 → (s.progEntry i).key = none) →
    ∃ t, exec .crawlStep s = .next t ∧ t.crw.row = row ++ [new] ∧ t.crw.queue = rest ∧
      t.crw.cursor = s.crw.cursor ∧ t.crw.handoffDue = decide (s.straps.sn ≠ 0) ∧
      t = { s with crw := t.crw, cpl := { s.cpl with crawlReq := true } }) ∧
  (∀ (s : State) (c : CrawlCell) (row : List CrawlCell), s.resetHeld = false →
    s.crw.stepDue = true → role s.straps = .head → s.crw.row = c :: row → s.crw.queue = [] →
    (∀ i, i < 32 → (s.progEntry i).key = none) →
    ∃ t, exec .crawlStep s = .next t ∧
      t.crw.row = row ++ [{ glyph := 0x20, fg := s.lay.global.crawlFg,
                            bg := s.lay.global.crawlBg, blink := false }] ∧
      t.crw.queue = [] ∧ t.crw.cursor = s.crw.cursor ∧
      t.sts.tallies.idle.toNat = min 65535 (s.sts.tallies.idle.toNat + 1)) ∧
  (∀ (s : State) (i : Nat) (k : Key), s.crw.cursor = i → i < 32 → (s.progEntry i).key = some k →
    (refill s).crw.queue = s.crw.queue ++ s.quote i k ∧ (refill s).crw.cursor = (i + 1) % 32 ∧
      5 ≤ (s.quote i k).length) ∧
  (∀ (s : State) (c : CrawlCell) (row : List CrawlCell) (n i : Nat) (k : Key), s.resetHeld = false →
    s.crw.stepDue = true → role s.straps = .head → s.crw.row = c :: row →
    s.crw.queue.length < cols s.straps → n < 32 → i = (s.crw.cursor + n) % 32 →
    (∀ m, m < n → (s.progEntry ((s.crw.cursor + m) % 32)).key = none) →
    (s.progEntry i).key = some k →
    ∃ t new rest, exec .crawlStep s = .next t ∧ s.crw.queue ++ s.quote i k = new :: rest ∧
      t.crw =
        { s.crw with
          row := row ++ [new], queue := rest, cursor := (i + 1) % 32, stepDue := false,
          handoffDue := decide (s.straps.sn ≠ 0) } ∧
      t = { s with crw := t.crw, cpl := { s.cpl with crawlReq := true } })

/-- R165, R169, R170: a link takes a HANDOFF of its upstream station for the next step's tag into
its hold and counts one of another tag as late; a head takes a CRAWLTEXT whole at the tail of its
queue or drops it whole, and CRAWL FLUSH empties that queue. Roles that do not take them are
unchanged. -/
def Obligations.CrawlParcelsTaken : Prop :=
  (∀ (rx : Rx) (b : HandoffBody) (s : State), s.hears rx false →
    ∃ t, exec (.handoff rx b) s = .next t ∧
      (role s.straps = .link rx.origin → b.tag = s.nextTag →
        t = { s.arrived rx with crw := { s.crw with
          hold := some { tag := b.tag, cell := { glyph := b.glyph, fg := b.fg, bg := b.bg,
                                                 blink := b.blink } } } }) ∧
      (role s.straps = .link rx.origin → b.tag ≠ s.nextTag →
        t = { s.arrived rx with sts := t.sts } ∧
          (s.sts.counters.underLate ≠ BitVec.allOnes 32 →
            t.sts.counters.underLate = s.sts.counters.underLate + 1)) ∧
      (role s.straps ≠ .link rx.origin → t = s.arrived rx)) ∧
  (∀ (rx : Rx) (b : CrawlTextBody) (s : State), s.hears rx true →
    ∃ t cells, exec (.crawltext rx b) s = .next t ∧
      cells = (b.chars.take (min b.count.toNat 24)).map (fun c =>
        { glyph := c.setWidth 9, fg := b.fg, bg := b.bg, blink := b.blink }) ∧
      (role s.straps = .head → s.crw.queue.length + cells.length ≤ 1024 →
        t = { s.arrived rx with crw := { s.crw with queue := s.crw.queue ++ cells } }) ∧
      (role s.straps = .head → 1024 < s.crw.queue.length + cells.length →
        t = { s.arrived rx with sts := t.sts } ∧
          t.sts.tallies.textDrops.toNat = min 65535 (s.sts.tallies.textDrops.toNat + 1)) ∧
      (role s.straps ≠ .head → t = s.arrived rx)) ∧
  (∀ (rx : Rx) (s : State), s.hears rx true → s.allows rx.origin →
    ∃ t, exec (.crawlFlush rx) s = .next t ∧
      (role s.straps = .head → t = { s.arrived rx with crw := { s.crw with queue := [] } }) ∧
      (role s.straps ≠ .head → t = s.arrived rx))

/-! ## Status -/

/-- R197 to R200, R202, R205: a lap start takes the snapshot of the counts, forms the lap alarm set,
takes the captures, restarts the counts, clears the latches and the SYNC-seen flag, offers one STATUS
of that report where the queue has room and the station is not mute, and rebuilds the status row text.
The last refusal stands, and no other block changes. The lap start is due when the sweep start said so
(assumption 5). -/
def Obligations.LapStartReports : Prop :=
  ∀ s : State, s.resetHeld = false → s.sts.lapDue = true →
    ∃ t, exec .lapStart s = .next t ∧
      [t.sts.report.counters.good, t.sts.report.counters.crc, t.sts.report.counters.accepted,
        t.sts.report.counters.conflated, t.sts.report.counters.dropped,
        t.sts.report.counters.gaps, t.sts.report.counters.underLate,
        t.sts.report.counters.refusals].map BitVec.toNat =
        [s.sts.counters.good, s.sts.counters.crc, s.sts.counters.accepted,
          s.sts.counters.conflated, s.sts.counters.dropped, s.sts.counters.gaps,
          s.sts.counters.underLate, s.sts.counters.refusals].map (fun c => min 65535 c.toNat) ∧
      t.sts.report.tallies = s.sts.tallies ∧
      (t.sts.report.alarms.sync = true ↔ s.lnk.sync = .stuck ∨ s.sts.syncSeen = true) ∧
      t.sts.report.alarms.clash = s.sts.clashLatch ∧
      (t.sts.report.alarms.silent = true ↔ t.sts.report.silent ≠ []) ∧
      (t.sts.report.alarms.orphan = true ↔ ∃ e ∈ s.dir.records, e.2.state = .orphaned) ∧
      (t.sts.report.alarms.drop = true ↔ s.sts.counters.dropped ≠ 0) ∧
      (t.sts.report.alarms.underrun = true ↔ s.sts.counters.underLate ≠ 0) ∧
      t.sts.report.alarms.foreign = s.sts.foreignLatch ∧
      (∀ n, n ∈ t.sts.report.silent ↔ ∃ e ∈ s.ptb.peers, e.1 = n ∧ e.2.state = .silent) ∧
      (∀ state count, (state, count) ∈ [(RecordState.orphaned, t.sts.report.orphaned),
          (.stale, t.sts.report.stale), (.gapped, t.sts.report.gapped)] →
        count.toNat = min 255 (s.dir.records.filter fun e => e.2.state = state).length) ∧
      t.sts =
        { counters := zeroCounters 32, tallies := zeroTallies, report := t.sts.report,
          clashLatch := false, foreignLatch := false, syncSeen := false,
          lastRefusal := s.sts.lastRefusal, text := t.sts.text, lapDue := false } ∧
      (s.straps.sn ≠ 0 → s.lnk.txq.length < 8 →
        t.lnk.txq = s.lnk.txq ++
          [statusParcel s.own t.sts.report
            (routed Routing.toParcel s.lay.global t.sts.report.alarms) s.sts.lastRefusal] ∧
        ∃ p, t.lnk.txq = s.lnk.txq ++ [p] ∧ p.kind = 8 ∧ p.origin = s.own ∧ p.target = 0 ∧
          p.sub = 0 ∧ p.body.length = 28) ∧
      (s.straps.sn = 0 ∨ 8 ≤ s.lnk.txq.length → t.lnk = s.lnk) ∧
      (s.straps.srow = true → t.cpl = { s.cpl with statusReq := true } ∧
        t.sts.text = statusText t ∧ t.sts.text.length = cols s.straps) ∧
      (s.straps.srow = false → t.cpl = s.cpl ∧ t.sts.text = s.sts.text) ∧
      t = { s with lnk := { s.lnk with txq := t.lnk.txq }, cpl := t.cpl, sts := t.sts }

/-- R204: COUNTER CLEAR sets the counts, the snapshots and the latches to 0 and takes DROP,
UNDERRUN, CLASH and FOREIGN out of the lap alarm set; SYNC, SILENT and ORPHAN of it, the captures
and the last refusal stand; the status row text is rebuilt; no parcel is built and no other block
changes. Refused FOREIGN, it raises the refusals counter and the FOREIGN latch and clears nothing.
That no text is built before the first lap start, while there is none, is R199 (assumption 40). -/
def Obligations.CounterClearResets : Prop :=
  (∀ (rx : Rx) (s : State), s.hears rx true → s.allows rx.origin →
    ∃ t, exec (.counterClear rx) s = .next t ∧
      t.sts =
        { counters := zeroCounters 32, tallies := zeroTallies,
          report := { s.sts.report with
            counters := zeroCounters 16, tallies := zeroTallies,
            alarms := { s.sts.report.alarms with
              clash := false, drop := false, underrun := false, foreign := false } },
          clashLatch := false, foreignLatch := false, syncSeen := false,
          lastRefusal := s.sts.lastRefusal, text := t.sts.text, lapDue := s.sts.lapDue } ∧
      (s.straps.srow = true → s.sts.text ≠ [] →
        t.sts.text = statusText t ∧ t.cpl = { s.cpl with statusReq := true }) ∧
      (s.straps.srow = false ∨ s.sts.text = [] → t.sts.text = s.sts.text ∧ t.cpl = s.cpl) ∧
      t = { s.arrived rx with cpl := t.cpl, sts := t.sts }) ∧
  (∀ (rx : Rx) (o : Station) (s : State), s.hears rx true → s.ptb.origin = some o →
    o ≠ rx.origin →
    ∃ t, exec (.counterClear rx) s = .next t ∧ t.sts.foreignLatch = true ∧
      (s.sts.counters.refusals ≠ BitVec.allOnes 32 →
        t.sts.counters.refusals = s.sts.counters.refusals + 1) ∧
      t = { s.arrived rx with sts := { (s.arrived rx).sts with
        counters := { (s.arrived rx).sts.counters with refusals := t.sts.counters.refusals },
        lastRefusal := t.sts.lastRefusal, foreignLatch := true } })

/-! ## Invariants of every step, and the parcel layouts -/

/-- R15, R41, R69, R116, R130, R179: every step keeps the queues and lists within their rooms, the
paint queue without a field twice, the intake queue without two open entries of one key, and the plane,
the paint states and the entries' items canonical. R54, R96, R102, R116, R168, R171: with the records
those that the layout names, it also keeps the paint queue within its 512 entries, the crawl text queue
within 1,024 cells, the directory within 256 records, the label store within 2,048 characters and every
field index below 512 (`storesSound` in Sys2Proof/Safety.lean). The canonical form is the model's
(assumption 25). -/
def Obligations.BuffersStaySound : Prop :=
  (∀ s t : State, s.buffersSound → step s = .next t → t.buffersSound) ∧
  (∀ s t : State, s.buffersSound → s.recordsMatch → s.storesSound → step s = .next t → t.storesSound)

/-- R139 to R146: every step keeps each window's state, page, frozen flag and compose progress in
agreement, no page in two windows, and no window but the eight, 0..7. The canonical form of the window
table is the model's (assumption 25). -/
def Obligations.WindowsStaySound : Prop :=
  ∀ s t : State, s.windowsSound → step s = .next t → t.windowsSound

/-- R130: every step keeps one highlight entry for exactly the fields whose flash is not NONE. -/
def Obligations.FlashesStayListed : Prop :=
  ∀ s t : State, s.flashesListed → step s = .next t → t.flashesListed

/-- R24, R30, R39, R54, R65, R67: every step keeps a record for exactly the keys the layout names,
with its reference and mark counts, a source that is not its alternate and a deadline in LIVE alone,
and every peer's miss count within its state. The counts are held as recounted (assumptions 17 and
18). -/
def Obligations.DirectoryStaysSound : Prop :=
  ∀ s t : State, s.directorySound → step s = .next t → t.directorySound

/-- R18, R22: the 32 bytes of the parcel that a well-formed command stands for decode, in its slot,
to that command with every operand. -/
def Obligations.ParcelRoundTrip : Prop :=
  ∀ (i : Instr) (rx : Rx), i.wellFormed = true → rxOf i = some rx →
    ∃ bytes, encodeParcel i = some bytes ∧ bytes.length = 32 ∧ decodeParcel rx.slot bytes = i
end

