-- ==== Sys2Proof/Laws/State.lean ====
section
/-! SUPPORT. What each update of State leaves in each field: one lemma per field per update. -/

namespace Sys2Proof.Machine

section blocks

@[simp] theorem State.modLnk_resetHeld (s : State) (f : Lnk → Lnk) : (s.modLnk f).resetHeld = s.resetHeld := rfl
@[simp] theorem State.modLnk_straps (s : State) (f : Lnk → Lnk) : (s.modLnk f).straps = s.straps := rfl
@[simp] theorem State.modLnk_lnk (s : State) (f : Lnk → Lnk) : (s.modLnk f).lnk = f s.lnk := rfl
@[simp] theorem State.modLnk_ptb (s : State) (f : Lnk → Lnk) : (s.modLnk f).ptb = s.ptb := rfl
@[simp] theorem State.modLnk_inq (s : State) (f : Lnk → Lnk) : (s.modLnk f).inq = s.inq := rfl
@[simp] theorem State.modLnk_dir (s : State) (f : Lnk → Lnk) : (s.modLnk f).dir = s.dir := rfl
@[simp] theorem State.modLnk_lay (s : State) (f : Lnk → Lnk) : (s.modLnk f).lay = s.lay := rfl
@[simp] theorem State.modLnk_pnt (s : State) (f : Lnk → Lnk) : (s.modLnk f).pnt = s.pnt := rfl
@[simp] theorem State.modLnk_win (s : State) (f : Lnk → Lnk) : (s.modLnk f).win = s.win := rfl
@[simp] theorem State.modLnk_crw (s : State) (f : Lnk → Lnk) : (s.modLnk f).crw = s.crw := rfl
@[simp] theorem State.modLnk_cpl (s : State) (f : Lnk → Lnk) : (s.modLnk f).cpl = s.cpl := rfl
@[simp] theorem State.modLnk_sts (s : State) (f : Lnk → Lnk) : (s.modLnk f).sts = s.sts := rfl
@[simp] theorem State.modLnk_pending (s : State) (f : Lnk → Lnk) : (s.modLnk f).pending = s.pending := rfl
@[simp] theorem State.modPtb_resetHeld (s : State) (f : Ptb → Ptb) : (s.modPtb f).resetHeld = s.resetHeld := rfl
@[simp] theorem State.modPtb_straps (s : State) (f : Ptb → Ptb) : (s.modPtb f).straps = s.straps := rfl
@[simp] theorem State.modPtb_lnk (s : State) (f : Ptb → Ptb) : (s.modPtb f).lnk = s.lnk := rfl
@[simp] theorem State.modPtb_ptb (s : State) (f : Ptb → Ptb) : (s.modPtb f).ptb = f s.ptb := rfl
@[simp] theorem State.modPtb_inq (s : State) (f : Ptb → Ptb) : (s.modPtb f).inq = s.inq := rfl
@[simp] theorem State.modPtb_dir (s : State) (f : Ptb → Ptb) : (s.modPtb f).dir = s.dir := rfl
@[simp] theorem State.modPtb_lay (s : State) (f : Ptb → Ptb) : (s.modPtb f).lay = s.lay := rfl
@[simp] theorem State.modPtb_pnt (s : State) (f : Ptb → Ptb) : (s.modPtb f).pnt = s.pnt := rfl
@[simp] theorem State.modPtb_win (s : State) (f : Ptb → Ptb) : (s.modPtb f).win = s.win := rfl
@[simp] theorem State.modPtb_crw (s : State) (f : Ptb → Ptb) : (s.modPtb f).crw = s.crw := rfl
@[simp] theorem State.modPtb_cpl (s : State) (f : Ptb → Ptb) : (s.modPtb f).cpl = s.cpl := rfl
@[simp] theorem State.modPtb_sts (s : State) (f : Ptb → Ptb) : (s.modPtb f).sts = s.sts := rfl
@[simp] theorem State.modPtb_pending (s : State) (f : Ptb → Ptb) : (s.modPtb f).pending = s.pending := rfl
@[simp] theorem State.modInq_resetHeld (s : State) (f : List IntakeEntry → List IntakeEntry) : (s.modInq f).resetHeld = s.resetHeld := rfl
@[simp] theorem State.modInq_straps (s : State) (f : List IntakeEntry → List IntakeEntry) : (s.modInq f).straps = s.straps := rfl
@[simp] theorem State.modInq_lnk (s : State) (f : List IntakeEntry → List IntakeEntry) : (s.modInq f).lnk = s.lnk := rfl
@[simp] theorem State.modInq_ptb (s : State) (f : List IntakeEntry → List IntakeEntry) : (s.modInq f).ptb = s.ptb := rfl
@[simp] theorem State.modInq_inq (s : State) (f : List IntakeEntry → List IntakeEntry) : (s.modInq f).inq = f s.inq := rfl
@[simp] theorem State.modInq_dir (s : State) (f : List IntakeEntry → List IntakeEntry) : (s.modInq f).dir = s.dir := rfl
@[simp] theorem State.modInq_lay (s : State) (f : List IntakeEntry → List IntakeEntry) : (s.modInq f).lay = s.lay := rfl
@[simp] theorem State.modInq_pnt (s : State) (f : List IntakeEntry → List IntakeEntry) : (s.modInq f).pnt = s.pnt := rfl
@[simp] theorem State.modInq_win (s : State) (f : List IntakeEntry → List IntakeEntry) : (s.modInq f).win = s.win := rfl
@[simp] theorem State.modInq_crw (s : State) (f : List IntakeEntry → List IntakeEntry) : (s.modInq f).crw = s.crw := rfl
@[simp] theorem State.modInq_cpl (s : State) (f : List IntakeEntry → List IntakeEntry) : (s.modInq f).cpl = s.cpl := rfl
@[simp] theorem State.modInq_sts (s : State) (f : List IntakeEntry → List IntakeEntry) : (s.modInq f).sts = s.sts := rfl
@[simp] theorem State.modInq_pending (s : State) (f : List IntakeEntry → List IntakeEntry) : (s.modInq f).pending = s.pending := rfl
@[simp] theorem State.modDir_resetHeld (s : State) (f : Dir → Dir) : (s.modDir f).resetHeld = s.resetHeld := rfl
@[simp] theorem State.modDir_straps (s : State) (f : Dir → Dir) : (s.modDir f).straps = s.straps := rfl
@[simp] theorem State.modDir_lnk (s : State) (f : Dir → Dir) : (s.modDir f).lnk = s.lnk := rfl
@[simp] theorem State.modDir_ptb (s : State) (f : Dir → Dir) : (s.modDir f).ptb = s.ptb := rfl
@[simp] theorem State.modDir_inq (s : State) (f : Dir → Dir) : (s.modDir f).inq = s.inq := rfl
@[simp] theorem State.modDir_dir (s : State) (f : Dir → Dir) : (s.modDir f).dir = f s.dir := rfl
@[simp] theorem State.modDir_lay (s : State) (f : Dir → Dir) : (s.modDir f).lay = s.lay := rfl
@[simp] theorem State.modDir_pnt (s : State) (f : Dir → Dir) : (s.modDir f).pnt = s.pnt := rfl
@[simp] theorem State.modDir_win (s : State) (f : Dir → Dir) : (s.modDir f).win = s.win := rfl
@[simp] theorem State.modDir_crw (s : State) (f : Dir → Dir) : (s.modDir f).crw = s.crw := rfl
@[simp] theorem State.modDir_cpl (s : State) (f : Dir → Dir) : (s.modDir f).cpl = s.cpl := rfl
@[simp] theorem State.modDir_sts (s : State) (f : Dir → Dir) : (s.modDir f).sts = s.sts := rfl
@[simp] theorem State.modDir_pending (s : State) (f : Dir → Dir) : (s.modDir f).pending = s.pending := rfl
@[simp] theorem State.modLay_resetHeld (s : State) (f : Lay → Lay) : (s.modLay f).resetHeld = s.resetHeld := rfl
@[simp] theorem State.modLay_straps (s : State) (f : Lay → Lay) : (s.modLay f).straps = s.straps := rfl
@[simp] theorem State.modLay_lnk (s : State) (f : Lay → Lay) : (s.modLay f).lnk = s.lnk := rfl
@[simp] theorem State.modLay_ptb (s : State) (f : Lay → Lay) : (s.modLay f).ptb = s.ptb := rfl
@[simp] theorem State.modLay_inq (s : State) (f : Lay → Lay) : (s.modLay f).inq = s.inq := rfl
@[simp] theorem State.modLay_dir (s : State) (f : Lay → Lay) : (s.modLay f).dir = s.dir := rfl
@[simp] theorem State.modLay_lay (s : State) (f : Lay → Lay) : (s.modLay f).lay = f s.lay := rfl
@[simp] theorem State.modLay_pnt (s : State) (f : Lay → Lay) : (s.modLay f).pnt = s.pnt := rfl
@[simp] theorem State.modLay_win (s : State) (f : Lay → Lay) : (s.modLay f).win = s.win := rfl
@[simp] theorem State.modLay_crw (s : State) (f : Lay → Lay) : (s.modLay f).crw = s.crw := rfl
@[simp] theorem State.modLay_cpl (s : State) (f : Lay → Lay) : (s.modLay f).cpl = s.cpl := rfl
@[simp] theorem State.modLay_sts (s : State) (f : Lay → Lay) : (s.modLay f).sts = s.sts := rfl
@[simp] theorem State.modLay_pending (s : State) (f : Lay → Lay) : (s.modLay f).pending = s.pending := rfl
@[simp] theorem State.modPnt_resetHeld (s : State) (f : Pnt → Pnt) : (s.modPnt f).resetHeld = s.resetHeld := rfl
@[simp] theorem State.modPnt_straps (s : State) (f : Pnt → Pnt) : (s.modPnt f).straps = s.straps := rfl
@[simp] theorem State.modPnt_lnk (s : State) (f : Pnt → Pnt) : (s.modPnt f).lnk = s.lnk := rfl
@[simp] theorem State.modPnt_ptb (s : State) (f : Pnt → Pnt) : (s.modPnt f).ptb = s.ptb := rfl
@[simp] theorem State.modPnt_inq (s : State) (f : Pnt → Pnt) : (s.modPnt f).inq = s.inq := rfl
@[simp] theorem State.modPnt_dir (s : State) (f : Pnt → Pnt) : (s.modPnt f).dir = s.dir := rfl
@[simp] theorem State.modPnt_lay (s : State) (f : Pnt → Pnt) : (s.modPnt f).lay = s.lay := rfl
@[simp] theorem State.modPnt_pnt (s : State) (f : Pnt → Pnt) : (s.modPnt f).pnt = f s.pnt := rfl
@[simp] theorem State.modPnt_win (s : State) (f : Pnt → Pnt) : (s.modPnt f).win = s.win := rfl
@[simp] theorem State.modPnt_crw (s : State) (f : Pnt → Pnt) : (s.modPnt f).crw = s.crw := rfl
@[simp] theorem State.modPnt_cpl (s : State) (f : Pnt → Pnt) : (s.modPnt f).cpl = s.cpl := rfl
@[simp] theorem State.modPnt_sts (s : State) (f : Pnt → Pnt) : (s.modPnt f).sts = s.sts := rfl
@[simp] theorem State.modPnt_pending (s : State) (f : Pnt → Pnt) : (s.modPnt f).pending = s.pending := rfl
@[simp] theorem State.modWin_resetHeld (s : State) (f : Tab Window → Tab Window) : (s.modWin f).resetHeld = s.resetHeld := rfl
@[simp] theorem State.modWin_straps (s : State) (f : Tab Window → Tab Window) : (s.modWin f).straps = s.straps := rfl
@[simp] theorem State.modWin_lnk (s : State) (f : Tab Window → Tab Window) : (s.modWin f).lnk = s.lnk := rfl
@[simp] theorem State.modWin_ptb (s : State) (f : Tab Window → Tab Window) : (s.modWin f).ptb = s.ptb := rfl
@[simp] theorem State.modWin_inq (s : State) (f : Tab Window → Tab Window) : (s.modWin f).inq = s.inq := rfl
@[simp] theorem State.modWin_dir (s : State) (f : Tab Window → Tab Window) : (s.modWin f).dir = s.dir := rfl
@[simp] theorem State.modWin_lay (s : State) (f : Tab Window → Tab Window) : (s.modWin f).lay = s.lay := rfl
@[simp] theorem State.modWin_pnt (s : State) (f : Tab Window → Tab Window) : (s.modWin f).pnt = s.pnt := rfl
@[simp] theorem State.modWin_win (s : State) (f : Tab Window → Tab Window) : (s.modWin f).win = f s.win := rfl
@[simp] theorem State.modWin_crw (s : State) (f : Tab Window → Tab Window) : (s.modWin f).crw = s.crw := rfl
@[simp] theorem State.modWin_cpl (s : State) (f : Tab Window → Tab Window) : (s.modWin f).cpl = s.cpl := rfl
@[simp] theorem State.modWin_sts (s : State) (f : Tab Window → Tab Window) : (s.modWin f).sts = s.sts := rfl
@[simp] theorem State.modWin_pending (s : State) (f : Tab Window → Tab Window) : (s.modWin f).pending = s.pending := rfl
@[simp] theorem State.modCrw_resetHeld (s : State) (f : Crw → Crw) : (s.modCrw f).resetHeld = s.resetHeld := rfl
@[simp] theorem State.modCrw_straps (s : State) (f : Crw → Crw) : (s.modCrw f).straps = s.straps := rfl
@[simp] theorem State.modCrw_lnk (s : State) (f : Crw → Crw) : (s.modCrw f).lnk = s.lnk := rfl
@[simp] theorem State.modCrw_ptb (s : State) (f : Crw → Crw) : (s.modCrw f).ptb = s.ptb := rfl
@[simp] theorem State.modCrw_inq (s : State) (f : Crw → Crw) : (s.modCrw f).inq = s.inq := rfl
@[simp] theorem State.modCrw_dir (s : State) (f : Crw → Crw) : (s.modCrw f).dir = s.dir := rfl
@[simp] theorem State.modCrw_lay (s : State) (f : Crw → Crw) : (s.modCrw f).lay = s.lay := rfl
@[simp] theorem State.modCrw_pnt (s : State) (f : Crw → Crw) : (s.modCrw f).pnt = s.pnt := rfl
@[simp] theorem State.modCrw_win (s : State) (f : Crw → Crw) : (s.modCrw f).win = s.win := rfl
@[simp] theorem State.modCrw_crw (s : State) (f : Crw → Crw) : (s.modCrw f).crw = f s.crw := rfl
@[simp] theorem State.modCrw_cpl (s : State) (f : Crw → Crw) : (s.modCrw f).cpl = s.cpl := rfl
@[simp] theorem State.modCrw_sts (s : State) (f : Crw → Crw) : (s.modCrw f).sts = s.sts := rfl
@[simp] theorem State.modCrw_pending (s : State) (f : Crw → Crw) : (s.modCrw f).pending = s.pending := rfl
@[simp] theorem State.modCpl_resetHeld (s : State) (f : Cpl → Cpl) : (s.modCpl f).resetHeld = s.resetHeld := rfl
@[simp] theorem State.modCpl_straps (s : State) (f : Cpl → Cpl) : (s.modCpl f).straps = s.straps := rfl
@[simp] theorem State.modCpl_lnk (s : State) (f : Cpl → Cpl) : (s.modCpl f).lnk = s.lnk := rfl
@[simp] theorem State.modCpl_ptb (s : State) (f : Cpl → Cpl) : (s.modCpl f).ptb = s.ptb := rfl
@[simp] theorem State.modCpl_inq (s : State) (f : Cpl → Cpl) : (s.modCpl f).inq = s.inq := rfl
@[simp] theorem State.modCpl_dir (s : State) (f : Cpl → Cpl) : (s.modCpl f).dir = s.dir := rfl
@[simp] theorem State.modCpl_lay (s : State) (f : Cpl → Cpl) : (s.modCpl f).lay = s.lay := rfl
@[simp] theorem State.modCpl_pnt (s : State) (f : Cpl → Cpl) : (s.modCpl f).pnt = s.pnt := rfl
@[simp] theorem State.modCpl_win (s : State) (f : Cpl → Cpl) : (s.modCpl f).win = s.win := rfl
@[simp] theorem State.modCpl_crw (s : State) (f : Cpl → Cpl) : (s.modCpl f).crw = s.crw := rfl
@[simp] theorem State.modCpl_cpl (s : State) (f : Cpl → Cpl) : (s.modCpl f).cpl = f s.cpl := rfl
@[simp] theorem State.modCpl_sts (s : State) (f : Cpl → Cpl) : (s.modCpl f).sts = s.sts := rfl
@[simp] theorem State.modCpl_pending (s : State) (f : Cpl → Cpl) : (s.modCpl f).pending = s.pending := rfl
@[simp] theorem State.modSts_resetHeld (s : State) (f : Sts → Sts) : (s.modSts f).resetHeld = s.resetHeld := rfl
@[simp] theorem State.modSts_straps (s : State) (f : Sts → Sts) : (s.modSts f).straps = s.straps := rfl
@[simp] theorem State.modSts_lnk (s : State) (f : Sts → Sts) : (s.modSts f).lnk = s.lnk := rfl
@[simp] theorem State.modSts_ptb (s : State) (f : Sts → Sts) : (s.modSts f).ptb = s.ptb := rfl
@[simp] theorem State.modSts_inq (s : State) (f : Sts → Sts) : (s.modSts f).inq = s.inq := rfl
@[simp] theorem State.modSts_dir (s : State) (f : Sts → Sts) : (s.modSts f).dir = s.dir := rfl
@[simp] theorem State.modSts_lay (s : State) (f : Sts → Sts) : (s.modSts f).lay = s.lay := rfl
@[simp] theorem State.modSts_pnt (s : State) (f : Sts → Sts) : (s.modSts f).pnt = s.pnt := rfl
@[simp] theorem State.modSts_win (s : State) (f : Sts → Sts) : (s.modSts f).win = s.win := rfl
@[simp] theorem State.modSts_crw (s : State) (f : Sts → Sts) : (s.modSts f).crw = s.crw := rfl
@[simp] theorem State.modSts_cpl (s : State) (f : Sts → Sts) : (s.modSts f).cpl = s.cpl := rfl
@[simp] theorem State.modSts_sts (s : State) (f : Sts → Sts) : (s.modSts f).sts = f s.sts := rfl
@[simp] theorem State.modSts_pending (s : State) (f : Sts → Sts) : (s.modSts f).pending = s.pending := rfl

end blocks

section reports

@[simp] theorem State.countGood_resetHeld (s : State) : s.countGood.resetHeld = s.resetHeld := rfl
@[simp] theorem State.countGood_straps (s : State) : s.countGood.straps = s.straps := rfl
@[simp] theorem State.countGood_lnk (s : State) : s.countGood.lnk = s.lnk := rfl
@[simp] theorem State.countGood_ptb (s : State) : s.countGood.ptb = s.ptb := rfl
@[simp] theorem State.countGood_inq (s : State) : s.countGood.inq = s.inq := rfl
@[simp] theorem State.countGood_dir (s : State) : s.countGood.dir = s.dir := rfl
@[simp] theorem State.countGood_lay (s : State) : s.countGood.lay = s.lay := rfl
@[simp] theorem State.countGood_pnt (s : State) : s.countGood.pnt = s.pnt := rfl
@[simp] theorem State.countGood_win (s : State) : s.countGood.win = s.win := rfl
@[simp] theorem State.countGood_crw (s : State) : s.countGood.crw = s.crw := rfl
@[simp] theorem State.countGood_cpl (s : State) : s.countGood.cpl = s.cpl := rfl
@[simp] theorem State.countGood_pending (s : State) : s.countGood.pending = s.pending := rfl
@[simp] theorem State.countCrc_resetHeld (s : State) : s.countCrc.resetHeld = s.resetHeld := rfl
@[simp] theorem State.countCrc_straps (s : State) : s.countCrc.straps = s.straps := rfl
@[simp] theorem State.countCrc_lnk (s : State) : s.countCrc.lnk = s.lnk := rfl
@[simp] theorem State.countCrc_ptb (s : State) : s.countCrc.ptb = s.ptb := rfl
@[simp] theorem State.countCrc_inq (s : State) : s.countCrc.inq = s.inq := rfl
@[simp] theorem State.countCrc_dir (s : State) : s.countCrc.dir = s.dir := rfl
@[simp] theorem State.countCrc_lay (s : State) : s.countCrc.lay = s.lay := rfl
@[simp] theorem State.countCrc_pnt (s : State) : s.countCrc.pnt = s.pnt := rfl
@[simp] theorem State.countCrc_win (s : State) : s.countCrc.win = s.win := rfl
@[simp] theorem State.countCrc_crw (s : State) : s.countCrc.crw = s.crw := rfl
@[simp] theorem State.countCrc_cpl (s : State) : s.countCrc.cpl = s.cpl := rfl
@[simp] theorem State.countCrc_pending (s : State) : s.countCrc.pending = s.pending := rfl
@[simp] theorem State.countAccepted_resetHeld (s : State) : s.countAccepted.resetHeld = s.resetHeld := rfl
@[simp] theorem State.countAccepted_straps (s : State) : s.countAccepted.straps = s.straps := rfl
@[simp] theorem State.countAccepted_lnk (s : State) : s.countAccepted.lnk = s.lnk := rfl
@[simp] theorem State.countAccepted_ptb (s : State) : s.countAccepted.ptb = s.ptb := rfl
@[simp] theorem State.countAccepted_inq (s : State) : s.countAccepted.inq = s.inq := rfl
@[simp] theorem State.countAccepted_dir (s : State) : s.countAccepted.dir = s.dir := rfl
@[simp] theorem State.countAccepted_lay (s : State) : s.countAccepted.lay = s.lay := rfl
@[simp] theorem State.countAccepted_pnt (s : State) : s.countAccepted.pnt = s.pnt := rfl
@[simp] theorem State.countAccepted_win (s : State) : s.countAccepted.win = s.win := rfl
@[simp] theorem State.countAccepted_crw (s : State) : s.countAccepted.crw = s.crw := rfl
@[simp] theorem State.countAccepted_cpl (s : State) : s.countAccepted.cpl = s.cpl := rfl
@[simp] theorem State.countAccepted_pending (s : State) : s.countAccepted.pending = s.pending := rfl
@[simp] theorem State.countConflated_resetHeld (s : State) : s.countConflated.resetHeld = s.resetHeld := rfl
@[simp] theorem State.countConflated_straps (s : State) : s.countConflated.straps = s.straps := rfl
@[simp] theorem State.countConflated_lnk (s : State) : s.countConflated.lnk = s.lnk := rfl
@[simp] theorem State.countConflated_ptb (s : State) : s.countConflated.ptb = s.ptb := rfl
@[simp] theorem State.countConflated_inq (s : State) : s.countConflated.inq = s.inq := rfl
@[simp] theorem State.countConflated_dir (s : State) : s.countConflated.dir = s.dir := rfl
@[simp] theorem State.countConflated_lay (s : State) : s.countConflated.lay = s.lay := rfl
@[simp] theorem State.countConflated_pnt (s : State) : s.countConflated.pnt = s.pnt := rfl
@[simp] theorem State.countConflated_win (s : State) : s.countConflated.win = s.win := rfl
@[simp] theorem State.countConflated_crw (s : State) : s.countConflated.crw = s.crw := rfl
@[simp] theorem State.countConflated_cpl (s : State) : s.countConflated.cpl = s.cpl := rfl
@[simp] theorem State.countConflated_pending (s : State) : s.countConflated.pending = s.pending := rfl
@[simp] theorem State.countDropped_resetHeld (s : State) : s.countDropped.resetHeld = s.resetHeld := rfl
@[simp] theorem State.countDropped_straps (s : State) : s.countDropped.straps = s.straps := rfl
@[simp] theorem State.countDropped_lnk (s : State) : s.countDropped.lnk = s.lnk := rfl
@[simp] theorem State.countDropped_ptb (s : State) : s.countDropped.ptb = s.ptb := rfl
@[simp] theorem State.countDropped_inq (s : State) : s.countDropped.inq = s.inq := rfl
@[simp] theorem State.countDropped_dir (s : State) : s.countDropped.dir = s.dir := rfl
@[simp] theorem State.countDropped_lay (s : State) : s.countDropped.lay = s.lay := rfl
@[simp] theorem State.countDropped_pnt (s : State) : s.countDropped.pnt = s.pnt := rfl
@[simp] theorem State.countDropped_win (s : State) : s.countDropped.win = s.win := rfl
@[simp] theorem State.countDropped_crw (s : State) : s.countDropped.crw = s.crw := rfl
@[simp] theorem State.countDropped_cpl (s : State) : s.countDropped.cpl = s.cpl := rfl
@[simp] theorem State.countDropped_pending (s : State) : s.countDropped.pending = s.pending := rfl
@[simp] theorem State.countGap_resetHeld (s : State) : s.countGap.resetHeld = s.resetHeld := rfl
@[simp] theorem State.countGap_straps (s : State) : s.countGap.straps = s.straps := rfl
@[simp] theorem State.countGap_lnk (s : State) : s.countGap.lnk = s.lnk := rfl
@[simp] theorem State.countGap_ptb (s : State) : s.countGap.ptb = s.ptb := rfl
@[simp] theorem State.countGap_inq (s : State) : s.countGap.inq = s.inq := rfl
@[simp] theorem State.countGap_dir (s : State) : s.countGap.dir = s.dir := rfl
@[simp] theorem State.countGap_lay (s : State) : s.countGap.lay = s.lay := rfl
@[simp] theorem State.countGap_pnt (s : State) : s.countGap.pnt = s.pnt := rfl
@[simp] theorem State.countGap_win (s : State) : s.countGap.win = s.win := rfl
@[simp] theorem State.countGap_crw (s : State) : s.countGap.crw = s.crw := rfl
@[simp] theorem State.countGap_cpl (s : State) : s.countGap.cpl = s.cpl := rfl
@[simp] theorem State.countGap_pending (s : State) : s.countGap.pending = s.pending := rfl
@[simp] theorem State.countUnderLate_resetHeld (s : State) : s.countUnderLate.resetHeld = s.resetHeld := rfl
@[simp] theorem State.countUnderLate_straps (s : State) : s.countUnderLate.straps = s.straps := rfl
@[simp] theorem State.countUnderLate_lnk (s : State) : s.countUnderLate.lnk = s.lnk := rfl
@[simp] theorem State.countUnderLate_ptb (s : State) : s.countUnderLate.ptb = s.ptb := rfl
@[simp] theorem State.countUnderLate_inq (s : State) : s.countUnderLate.inq = s.inq := rfl
@[simp] theorem State.countUnderLate_dir (s : State) : s.countUnderLate.dir = s.dir := rfl
@[simp] theorem State.countUnderLate_lay (s : State) : s.countUnderLate.lay = s.lay := rfl
@[simp] theorem State.countUnderLate_pnt (s : State) : s.countUnderLate.pnt = s.pnt := rfl
@[simp] theorem State.countUnderLate_win (s : State) : s.countUnderLate.win = s.win := rfl
@[simp] theorem State.countUnderLate_crw (s : State) : s.countUnderLate.crw = s.crw := rfl
@[simp] theorem State.countUnderLate_cpl (s : State) : s.countUnderLate.cpl = s.cpl := rfl
@[simp] theorem State.countUnderLate_pending (s : State) : s.countUnderLate.pending = s.pending := rfl
@[simp] theorem State.tallyDuplicate_resetHeld (s : State) : s.tallyDuplicate.resetHeld = s.resetHeld := rfl
@[simp] theorem State.tallyDuplicate_straps (s : State) : s.tallyDuplicate.straps = s.straps := rfl
@[simp] theorem State.tallyDuplicate_lnk (s : State) : s.tallyDuplicate.lnk = s.lnk := rfl
@[simp] theorem State.tallyDuplicate_ptb (s : State) : s.tallyDuplicate.ptb = s.ptb := rfl
@[simp] theorem State.tallyDuplicate_inq (s : State) : s.tallyDuplicate.inq = s.inq := rfl
@[simp] theorem State.tallyDuplicate_dir (s : State) : s.tallyDuplicate.dir = s.dir := rfl
@[simp] theorem State.tallyDuplicate_lay (s : State) : s.tallyDuplicate.lay = s.lay := rfl
@[simp] theorem State.tallyDuplicate_pnt (s : State) : s.tallyDuplicate.pnt = s.pnt := rfl
@[simp] theorem State.tallyDuplicate_win (s : State) : s.tallyDuplicate.win = s.win := rfl
@[simp] theorem State.tallyDuplicate_crw (s : State) : s.tallyDuplicate.crw = s.crw := rfl
@[simp] theorem State.tallyDuplicate_cpl (s : State) : s.tallyDuplicate.cpl = s.cpl := rfl
@[simp] theorem State.tallyDuplicate_pending (s : State) : s.tallyDuplicate.pending = s.pending := rfl
@[simp] theorem State.tallyUnbound_resetHeld (s : State) : s.tallyUnbound.resetHeld = s.resetHeld := rfl
@[simp] theorem State.tallyUnbound_straps (s : State) : s.tallyUnbound.straps = s.straps := rfl
@[simp] theorem State.tallyUnbound_lnk (s : State) : s.tallyUnbound.lnk = s.lnk := rfl
@[simp] theorem State.tallyUnbound_ptb (s : State) : s.tallyUnbound.ptb = s.ptb := rfl
@[simp] theorem State.tallyUnbound_inq (s : State) : s.tallyUnbound.inq = s.inq := rfl
@[simp] theorem State.tallyUnbound_dir (s : State) : s.tallyUnbound.dir = s.dir := rfl
@[simp] theorem State.tallyUnbound_lay (s : State) : s.tallyUnbound.lay = s.lay := rfl
@[simp] theorem State.tallyUnbound_pnt (s : State) : s.tallyUnbound.pnt = s.pnt := rfl
@[simp] theorem State.tallyUnbound_win (s : State) : s.tallyUnbound.win = s.win := rfl
@[simp] theorem State.tallyUnbound_crw (s : State) : s.tallyUnbound.crw = s.crw := rfl
@[simp] theorem State.tallyUnbound_cpl (s : State) : s.tallyUnbound.cpl = s.cpl := rfl
@[simp] theorem State.tallyUnbound_pending (s : State) : s.tallyUnbound.pending = s.pending := rfl
@[simp] theorem State.tallyMalformed_resetHeld (s : State) : s.tallyMalformed.resetHeld = s.resetHeld := rfl
@[simp] theorem State.tallyMalformed_straps (s : State) : s.tallyMalformed.straps = s.straps := rfl
@[simp] theorem State.tallyMalformed_lnk (s : State) : s.tallyMalformed.lnk = s.lnk := rfl
@[simp] theorem State.tallyMalformed_ptb (s : State) : s.tallyMalformed.ptb = s.ptb := rfl
@[simp] theorem State.tallyMalformed_inq (s : State) : s.tallyMalformed.inq = s.inq := rfl
@[simp] theorem State.tallyMalformed_dir (s : State) : s.tallyMalformed.dir = s.dir := rfl
@[simp] theorem State.tallyMalformed_lay (s : State) : s.tallyMalformed.lay = s.lay := rfl
@[simp] theorem State.tallyMalformed_pnt (s : State) : s.tallyMalformed.pnt = s.pnt := rfl
@[simp] theorem State.tallyMalformed_win (s : State) : s.tallyMalformed.win = s.win := rfl
@[simp] theorem State.tallyMalformed_crw (s : State) : s.tallyMalformed.crw = s.crw := rfl
@[simp] theorem State.tallyMalformed_cpl (s : State) : s.tallyMalformed.cpl = s.cpl := rfl
@[simp] theorem State.tallyMalformed_pending (s : State) : s.tallyMalformed.pending = s.pending := rfl
@[simp] theorem State.tallySkip_resetHeld (s : State) : s.tallySkip.resetHeld = s.resetHeld := rfl
@[simp] theorem State.tallySkip_straps (s : State) : s.tallySkip.straps = s.straps := rfl
@[simp] theorem State.tallySkip_lnk (s : State) : s.tallySkip.lnk = s.lnk := rfl
@[simp] theorem State.tallySkip_ptb (s : State) : s.tallySkip.ptb = s.ptb := rfl
@[simp] theorem State.tallySkip_inq (s : State) : s.tallySkip.inq = s.inq := rfl
@[simp] theorem State.tallySkip_dir (s : State) : s.tallySkip.dir = s.dir := rfl
@[simp] theorem State.tallySkip_lay (s : State) : s.tallySkip.lay = s.lay := rfl
@[simp] theorem State.tallySkip_pnt (s : State) : s.tallySkip.pnt = s.pnt := rfl
@[simp] theorem State.tallySkip_win (s : State) : s.tallySkip.win = s.win := rfl
@[simp] theorem State.tallySkip_crw (s : State) : s.tallySkip.crw = s.crw := rfl
@[simp] theorem State.tallySkip_cpl (s : State) : s.tallySkip.cpl = s.cpl := rfl
@[simp] theorem State.tallySkip_pending (s : State) : s.tallySkip.pending = s.pending := rfl
@[simp] theorem State.tallyRefreshFail_resetHeld (s : State) : s.tallyRefreshFail.resetHeld = s.resetHeld := rfl
@[simp] theorem State.tallyRefreshFail_straps (s : State) : s.tallyRefreshFail.straps = s.straps := rfl
@[simp] theorem State.tallyRefreshFail_lnk (s : State) : s.tallyRefreshFail.lnk = s.lnk := rfl
@[simp] theorem State.tallyRefreshFail_ptb (s : State) : s.tallyRefreshFail.ptb = s.ptb := rfl
@[simp] theorem State.tallyRefreshFail_inq (s : State) : s.tallyRefreshFail.inq = s.inq := rfl
@[simp] theorem State.tallyRefreshFail_dir (s : State) : s.tallyRefreshFail.dir = s.dir := rfl
@[simp] theorem State.tallyRefreshFail_lay (s : State) : s.tallyRefreshFail.lay = s.lay := rfl
@[simp] theorem State.tallyRefreshFail_pnt (s : State) : s.tallyRefreshFail.pnt = s.pnt := rfl
@[simp] theorem State.tallyRefreshFail_win (s : State) : s.tallyRefreshFail.win = s.win := rfl
@[simp] theorem State.tallyRefreshFail_crw (s : State) : s.tallyRefreshFail.crw = s.crw := rfl
@[simp] theorem State.tallyRefreshFail_cpl (s : State) : s.tallyRefreshFail.cpl = s.cpl := rfl
@[simp] theorem State.tallyRefreshFail_pending (s : State) : s.tallyRefreshFail.pending = s.pending := rfl
@[simp] theorem State.tallyIdle_resetHeld (s : State) : s.tallyIdle.resetHeld = s.resetHeld := rfl
@[simp] theorem State.tallyIdle_straps (s : State) : s.tallyIdle.straps = s.straps := rfl
@[simp] theorem State.tallyIdle_lnk (s : State) : s.tallyIdle.lnk = s.lnk := rfl
@[simp] theorem State.tallyIdle_ptb (s : State) : s.tallyIdle.ptb = s.ptb := rfl
@[simp] theorem State.tallyIdle_inq (s : State) : s.tallyIdle.inq = s.inq := rfl
@[simp] theorem State.tallyIdle_dir (s : State) : s.tallyIdle.dir = s.dir := rfl
@[simp] theorem State.tallyIdle_lay (s : State) : s.tallyIdle.lay = s.lay := rfl
@[simp] theorem State.tallyIdle_pnt (s : State) : s.tallyIdle.pnt = s.pnt := rfl
@[simp] theorem State.tallyIdle_win (s : State) : s.tallyIdle.win = s.win := rfl
@[simp] theorem State.tallyIdle_crw (s : State) : s.tallyIdle.crw = s.crw := rfl
@[simp] theorem State.tallyIdle_cpl (s : State) : s.tallyIdle.cpl = s.cpl := rfl
@[simp] theorem State.tallyIdle_pending (s : State) : s.tallyIdle.pending = s.pending := rfl
@[simp] theorem State.tallyTextDrop_resetHeld (s : State) : s.tallyTextDrop.resetHeld = s.resetHeld := rfl
@[simp] theorem State.tallyTextDrop_straps (s : State) : s.tallyTextDrop.straps = s.straps := rfl
@[simp] theorem State.tallyTextDrop_lnk (s : State) : s.tallyTextDrop.lnk = s.lnk := rfl
@[simp] theorem State.tallyTextDrop_ptb (s : State) : s.tallyTextDrop.ptb = s.ptb := rfl
@[simp] theorem State.tallyTextDrop_inq (s : State) : s.tallyTextDrop.inq = s.inq := rfl
@[simp] theorem State.tallyTextDrop_dir (s : State) : s.tallyTextDrop.dir = s.dir := rfl
@[simp] theorem State.tallyTextDrop_lay (s : State) : s.tallyTextDrop.lay = s.lay := rfl
@[simp] theorem State.tallyTextDrop_pnt (s : State) : s.tallyTextDrop.pnt = s.pnt := rfl
@[simp] theorem State.tallyTextDrop_win (s : State) : s.tallyTextDrop.win = s.win := rfl
@[simp] theorem State.tallyTextDrop_crw (s : State) : s.tallyTextDrop.crw = s.crw := rfl
@[simp] theorem State.tallyTextDrop_cpl (s : State) : s.tallyTextDrop.cpl = s.cpl := rfl
@[simp] theorem State.tallyTextDrop_pending (s : State) : s.tallyTextDrop.pending = s.pending := rfl
@[simp] theorem State.raiseClash_resetHeld (s : State) : s.raiseClash.resetHeld = s.resetHeld := rfl
@[simp] theorem State.raiseClash_straps (s : State) : s.raiseClash.straps = s.straps := rfl
@[simp] theorem State.raiseClash_lnk (s : State) : s.raiseClash.lnk = s.lnk := rfl
@[simp] theorem State.raiseClash_ptb (s : State) : s.raiseClash.ptb = s.ptb := rfl
@[simp] theorem State.raiseClash_inq (s : State) : s.raiseClash.inq = s.inq := rfl
@[simp] theorem State.raiseClash_dir (s : State) : s.raiseClash.dir = s.dir := rfl
@[simp] theorem State.raiseClash_lay (s : State) : s.raiseClash.lay = s.lay := rfl
@[simp] theorem State.raiseClash_pnt (s : State) : s.raiseClash.pnt = s.pnt := rfl
@[simp] theorem State.raiseClash_win (s : State) : s.raiseClash.win = s.win := rfl
@[simp] theorem State.raiseClash_crw (s : State) : s.raiseClash.crw = s.crw := rfl
@[simp] theorem State.raiseClash_cpl (s : State) : s.raiseClash.cpl = s.cpl := rfl
@[simp] theorem State.raiseClash_pending (s : State) : s.raiseClash.pending = s.pending := rfl
@[simp] theorem State.refuse_resetHeld (k c : Nibble) (r : Reason) (o : Station) (s : State) :
    (s.refuse k c r o).resetHeld = s.resetHeld := rfl
@[simp] theorem State.refuse_straps (k c : Nibble) (r : Reason) (o : Station) (s : State) :
    (s.refuse k c r o).straps = s.straps := rfl
@[simp] theorem State.refuse_lnk (k c : Nibble) (r : Reason) (o : Station) (s : State) :
    (s.refuse k c r o).lnk = s.lnk := rfl
@[simp] theorem State.refuse_ptb (k c : Nibble) (r : Reason) (o : Station) (s : State) :
    (s.refuse k c r o).ptb = s.ptb := rfl
@[simp] theorem State.refuse_inq (k c : Nibble) (r : Reason) (o : Station) (s : State) :
    (s.refuse k c r o).inq = s.inq := rfl
@[simp] theorem State.refuse_dir (k c : Nibble) (r : Reason) (o : Station) (s : State) :
    (s.refuse k c r o).dir = s.dir := rfl
@[simp] theorem State.refuse_lay (k c : Nibble) (r : Reason) (o : Station) (s : State) :
    (s.refuse k c r o).lay = s.lay := rfl
@[simp] theorem State.refuse_pnt (k c : Nibble) (r : Reason) (o : Station) (s : State) :
    (s.refuse k c r o).pnt = s.pnt := rfl
@[simp] theorem State.refuse_win (k c : Nibble) (r : Reason) (o : Station) (s : State) :
    (s.refuse k c r o).win = s.win := rfl
@[simp] theorem State.refuse_crw (k c : Nibble) (r : Reason) (o : Station) (s : State) :
    (s.refuse k c r o).crw = s.crw := rfl
@[simp] theorem State.refuse_cpl (k c : Nibble) (r : Reason) (o : Station) (s : State) :
    (s.refuse k c r o).cpl = s.cpl := rfl
@[simp] theorem State.refuse_pending (k c : Nibble) (r : Reason) (o : Station) (s : State) :
    (s.refuse k c r o).pending = s.pending := rfl

end reports

section updates

@[simp] theorem State.enqueue_resetHeld (k : PaintKind) (l : List Nat) (s : State) :
    (s.enqueue k l).resetHeld = s.resetHeld := rfl
@[simp] theorem State.enqueue_straps (k : PaintKind) (l : List Nat) (s : State) :
    (s.enqueue k l).straps = s.straps := rfl
@[simp] theorem State.enqueue_lnk (k : PaintKind) (l : List Nat) (s : State) :
    (s.enqueue k l).lnk = s.lnk := rfl
@[simp] theorem State.enqueue_ptb (k : PaintKind) (l : List Nat) (s : State) :
    (s.enqueue k l).ptb = s.ptb := rfl
@[simp] theorem State.enqueue_inq (k : PaintKind) (l : List Nat) (s : State) :
    (s.enqueue k l).inq = s.inq := rfl
@[simp] theorem State.enqueue_dir (k : PaintKind) (l : List Nat) (s : State) :
    (s.enqueue k l).dir = s.dir := rfl
@[simp] theorem State.enqueue_lay (k : PaintKind) (l : List Nat) (s : State) :
    (s.enqueue k l).lay = s.lay := rfl
@[simp] theorem State.enqueue_win (k : PaintKind) (l : List Nat) (s : State) :
    (s.enqueue k l).win = s.win := rfl
@[simp] theorem State.enqueue_crw (k : PaintKind) (l : List Nat) (s : State) :
    (s.enqueue k l).crw = s.crw := rfl
@[simp] theorem State.enqueue_cpl (k : PaintKind) (l : List Nat) (s : State) :
    (s.enqueue k l).cpl = s.cpl := rfl
@[simp] theorem State.enqueue_sts (k : PaintKind) (l : List Nat) (s : State) :
    (s.enqueue k l).sts = s.sts := rfl
@[simp] theorem State.enqueue_pending (k : PaintKind) (l : List Nat) (s : State) :
    (s.enqueue k l).pending = s.pending := rfl
@[simp] theorem State.modWindow_resetHeld (w : Nat) (g : Window → Window) (s : State) :
    (s.modWindow w g).resetHeld = s.resetHeld := rfl
@[simp] theorem State.modWindow_straps (w : Nat) (g : Window → Window) (s : State) :
    (s.modWindow w g).straps = s.straps := rfl
@[simp] theorem State.modWindow_lnk (w : Nat) (g : Window → Window) (s : State) :
    (s.modWindow w g).lnk = s.lnk := rfl
@[simp] theorem State.modWindow_ptb (w : Nat) (g : Window → Window) (s : State) :
    (s.modWindow w g).ptb = s.ptb := rfl
@[simp] theorem State.modWindow_inq (w : Nat) (g : Window → Window) (s : State) :
    (s.modWindow w g).inq = s.inq := rfl
@[simp] theorem State.modWindow_dir (w : Nat) (g : Window → Window) (s : State) :
    (s.modWindow w g).dir = s.dir := rfl
@[simp] theorem State.modWindow_lay (w : Nat) (g : Window → Window) (s : State) :
    (s.modWindow w g).lay = s.lay := rfl
@[simp] theorem State.modWindow_pnt (w : Nat) (g : Window → Window) (s : State) :
    (s.modWindow w g).pnt = s.pnt := rfl
@[simp] theorem State.modWindow_crw (w : Nat) (g : Window → Window) (s : State) :
    (s.modWindow w g).crw = s.crw := rfl
@[simp] theorem State.modWindow_cpl (w : Nat) (g : Window → Window) (s : State) :
    (s.modWindow w g).cpl = s.cpl := rfl
@[simp] theorem State.modWindow_sts (w : Nat) (g : Window → Window) (s : State) :
    (s.modWindow w g).sts = s.sts := rfl
@[simp] theorem State.modWindow_pending (w : Nat) (g : Window → Window) (s : State) :
    (s.modWindow w g).pending = s.pending := rfl
@[simp] theorem State.modPaint_resetHeld (i : Nat) (g : PaintState → PaintState) (s : State) :
    (s.modPaint i g).resetHeld = s.resetHeld := rfl
@[simp] theorem State.modPaint_straps (i : Nat) (g : PaintState → PaintState) (s : State) :
    (s.modPaint i g).straps = s.straps := rfl
@[simp] theorem State.modPaint_lnk (i : Nat) (g : PaintState → PaintState) (s : State) :
    (s.modPaint i g).lnk = s.lnk := rfl
@[simp] theorem State.modPaint_ptb (i : Nat) (g : PaintState → PaintState) (s : State) :
    (s.modPaint i g).ptb = s.ptb := rfl
@[simp] theorem State.modPaint_inq (i : Nat) (g : PaintState → PaintState) (s : State) :
    (s.modPaint i g).inq = s.inq := rfl
@[simp] theorem State.modPaint_dir (i : Nat) (g : PaintState → PaintState) (s : State) :
    (s.modPaint i g).dir = s.dir := rfl
@[simp] theorem State.modPaint_lay (i : Nat) (g : PaintState → PaintState) (s : State) :
    (s.modPaint i g).lay = s.lay := rfl
@[simp] theorem State.modPaint_win (i : Nat) (g : PaintState → PaintState) (s : State) :
    (s.modPaint i g).win = s.win := rfl
@[simp] theorem State.modPaint_crw (i : Nat) (g : PaintState → PaintState) (s : State) :
    (s.modPaint i g).crw = s.crw := rfl
@[simp] theorem State.modPaint_cpl (i : Nat) (g : PaintState → PaintState) (s : State) :
    (s.modPaint i g).cpl = s.cpl := rfl
@[simp] theorem State.modPaint_sts (i : Nat) (g : PaintState → PaintState) (s : State) :
    (s.modPaint i g).sts = s.sts := rfl
@[simp] theorem State.modPaint_pending (i : Nat) (g : PaintState → PaintState) (s : State) :
    (s.modPaint i g).pending = s.pending := rfl
@[simp] theorem State.txAdd_resetHeld (p : Parcel) (s : State) : (s.txAdd p).resetHeld = s.resetHeld := rfl
@[simp] theorem State.txAdd_straps (p : Parcel) (s : State) : (s.txAdd p).straps = s.straps := rfl
@[simp] theorem State.txAdd_ptb (p : Parcel) (s : State) : (s.txAdd p).ptb = s.ptb := rfl
@[simp] theorem State.txAdd_inq (p : Parcel) (s : State) : (s.txAdd p).inq = s.inq := rfl
@[simp] theorem State.txAdd_dir (p : Parcel) (s : State) : (s.txAdd p).dir = s.dir := rfl
@[simp] theorem State.txAdd_lay (p : Parcel) (s : State) : (s.txAdd p).lay = s.lay := rfl
@[simp] theorem State.txAdd_pnt (p : Parcel) (s : State) : (s.txAdd p).pnt = s.pnt := rfl
@[simp] theorem State.txAdd_win (p : Parcel) (s : State) : (s.txAdd p).win = s.win := rfl
@[simp] theorem State.txAdd_crw (p : Parcel) (s : State) : (s.txAdd p).crw = s.crw := rfl
@[simp] theorem State.txAdd_cpl (p : Parcel) (s : State) : (s.txAdd p).cpl = s.cpl := rfl
@[simp] theorem State.txAdd_sts (p : Parcel) (s : State) : (s.txAdd p).sts = s.sts := rfl
@[simp] theorem State.txAdd_pending (p : Parcel) (s : State) : (s.txAdd p).pending = s.pending := rfl
@[simp] theorem State.setRecord_resetHeld (r : Record) (s : State) :
    (s.setRecord r).resetHeld = s.resetHeld := rfl
@[simp] theorem State.setRecord_straps (r : Record) (s : State) :
    (s.setRecord r).straps = s.straps := rfl
@[simp] theorem State.setRecord_lnk (r : Record) (s : State) :
    (s.setRecord r).lnk = s.lnk := rfl
@[simp] theorem State.setRecord_ptb (r : Record) (s : State) :
    (s.setRecord r).ptb = s.ptb := rfl
@[simp] theorem State.setRecord_inq (r : Record) (s : State) :
    (s.setRecord r).inq = s.inq := rfl
@[simp] theorem State.setRecord_lay (r : Record) (s : State) :
    (s.setRecord r).lay = s.lay := rfl
@[simp] theorem State.setRecord_pnt (r : Record) (s : State) :
    (s.setRecord r).pnt = s.pnt := rfl
@[simp] theorem State.setRecord_win (r : Record) (s : State) :
    (s.setRecord r).win = s.win := rfl
@[simp] theorem State.setRecord_crw (r : Record) (s : State) :
    (s.setRecord r).crw = s.crw := rfl
@[simp] theorem State.setRecord_cpl (r : Record) (s : State) :
    (s.setRecord r).cpl = s.cpl := rfl
@[simp] theorem State.setRecord_sts (r : Record) (s : State) :
    (s.setRecord r).sts = s.sts := rfl
@[simp] theorem State.setRecord_pending (r : Record) (s : State) :
    (s.setRecord r).pending = s.pending := rfl

end updates

end Sys2Proof.Machine
end

