-- ==== Sys2Proof/Laws/Tables.lean ====
section
/-! SUPPORT. The laws of sparse tables: what a read gives after a write, and that every operation keeps
the canonical form. -/

namespace Sys2Proof.Machine

variable {α : Type}

/-! ## Reads after writes -/

@[simp] theorem Tab.look_nil (k : Nat) : Tab.look k ([] : Tab α) = none := rfl

theorem Tab.look_erase (k j : Nat) (t : Tab α) :
    Tab.look j (Tab.erase k t) = if j = k then none else Tab.look j t := by
  induction t with
  | nil => simp [Tab.erase]
  | cons e t ih =>
    obtain ⟨i, v⟩ := e
    by_cases hik : i = k <;> by_cases hjk : j = k <;> by_cases hij : i = j <;>
      simp_all [Tab.erase, Tab.look]

theorem Tab.mem_of_look {k : Nat} {v : α} {t : Tab α} (h : Tab.look k t = some v) : (k, v) ∈ t := by
  induction t with
  | nil => simp at h
  | cons e t ih =>
    obtain ⟨i, w⟩ := e
    by_cases hi : i = k
    · simp only [Tab.look, hi, if_true, Option.some.injEq] at h
      simp [hi, h]
    · exact List.mem_cons_of_mem _ (ih (by simpa [Tab.look, hi] using h))

theorem Tab.look_place (k j : Nat) (v : α) (t : Tab α) (h : Tab.look k t = none) :
    Tab.look j (Tab.place k v t) = if j = k then some v else Tab.look j t := by
  induction t with
  | nil => simp [Tab.place, Tab.look, eq_comm]
  | cons e t ih =>
    obtain ⟨i, w⟩ := e
    have hik : i ≠ k := by
      intro hik
      simp [Tab.look, hik] at h
    have ih' := ih (by simpa [Tab.look, hik] using h)
    by_cases hk : k < i
    · simp only [Tab.place, hk, if_true]
      by_cases hjk : j = k
      · simp [Tab.look, hjk]
      · simp [Tab.look, hjk, Ne.symm hjk]
    · simp only [Tab.place, hk, if_false, Tab.look]
      by_cases hij : i = j
      · have : j ≠ k := fun e => hik (hij.trans e)
        simp [hij, this]
      · simp [hij, ih']

theorem Tab.look_insert (k j : Nat) (v : α) (t : Tab α) :
    Tab.look j (Tab.insert k v t) = if j = k then some v else Tab.look j t := by
  rw [Tab.insert, Tab.look_place _ _ _ _ (by simp [Tab.look_erase])]
  by_cases h : j = k <;> simp [h, Tab.look_erase]

/-- What a table holds after a value is put in it. -/
theorem Tab.get_put [DecidableEq α] (d : α) (k j : Nat) (v : α) (t : Tab α) :
    Tab.get d j (Tab.put d k v t) = if j = k then v else Tab.get d j t := by
  unfold Tab.put Tab.get
  by_cases hv : v = d <;> by_cases hjk : j = k <;>
    simp [hv, hjk, Tab.look_erase, Tab.look_insert]

@[simp] theorem Tab.get_put_self [DecidableEq α] (d : α) (k : Nat) (v : α) (t : Tab α) :
    Tab.get d k (Tab.put d k v t) = v := by simp [Tab.get_put]

theorem Tab.get_put_of_ne [DecidableEq α] (d : α) {k j : Nat} (h : j ≠ k) (v : α) (t : Tab α) :
    Tab.get d j (Tab.put d k v t) = Tab.get d j t := by simp [Tab.get_put, h]

/-! ## The canonical form -/

/-- Every index of a table is above a bound. -/
def Tab.above (b : Nat) (t : Tab α) : Prop := ∀ e ∈ t, b < e.1

theorem Tab.rising_cons (i : Nat) (v : α) (t : Tab α) :
    Tab.rising ((i, v) :: t) = true ↔ Tab.above i t ∧ Tab.rising t = true := by
  induction t generalizing i v with
  | nil => simp [Tab.rising, Tab.above]
  | cons e t ih =>
    obtain ⟨j, w⟩ := e
    have hj := ih j w
    simp only [Tab.rising, Bool.and_eq_true, decide_eq_true_eq]
    constructor
    · rintro ⟨hij, hr⟩
      refine ⟨?_, hr⟩
      rintro e (_ | ⟨_, he⟩)
      · exact hij
      · exact hij.trans ((hj.mp hr).1 _ ‹_›)
    · rintro ⟨ha, hr⟩
      exact ⟨ha (j, w) (by simp), hr⟩

theorem Tab.mem_erase {k : Nat} {e : Nat × α} {t : Tab α} (h : e ∈ Tab.erase k t) : e ∈ t ∧ e.1 ≠ k := by
  induction t with
  | nil => simp [Tab.erase] at h
  | cons f t ih =>
    obtain ⟨i, v⟩ := f
    by_cases hik : i = k
    · have := ih (by simpa [Tab.erase, hik] using h)
      exact ⟨by simp [this.1], this.2⟩
    · rcases List.mem_cons.mp (by simpa [Tab.erase, hik] using h) with rfl | h'
      · exact ⟨by simp, hik⟩
      · exact ⟨by simp [(ih h').1], (ih h').2⟩

theorem Tab.rising_erase (k : Nat) {t : Tab α} (h : Tab.rising t = true) :
    Tab.rising (Tab.erase k t) = true := by
  induction t with
  | nil => rfl
  | cons e t ih =>
    obtain ⟨i, v⟩ := e
    have hc := (Tab.rising_cons i v t).mp h
    by_cases hik : i = k
    · simpa [Tab.erase, hik] using ih hc.2
    · simp only [Tab.erase, hik, if_false]
      exact (Tab.rising_cons i v _).mpr ⟨fun e he => hc.1 e (Tab.mem_erase he).1, ih hc.2⟩

theorem Tab.mem_place {k : Nat} {v : α} {e : Nat × α} {t : Tab α} (h : e ∈ Tab.place k v t) :
    e = (k, v) ∨ e ∈ t := by
  induction t with
  | nil => exact Or.inl (by simpa [Tab.place] using h)
  | cons f t ih =>
    obtain ⟨i, w⟩ := f
    by_cases hk : k < i
    · simpa [Tab.place, hk] using h
    · rcases List.mem_cons.mp (by simpa [Tab.place, hk] using h) with rfl | h'
      · exact Or.inr (by simp)
      · exact (ih h').imp id (by simp_all)

theorem Tab.rising_place (k : Nat) (v : α) {t : Tab α} (h : Tab.rising t = true)
    (hk : ∀ e ∈ t, e.1 ≠ k) : Tab.rising (Tab.place k v t) = true := by
  induction t with
  | nil => rfl
  | cons e t ih =>
    obtain ⟨i, w⟩ := e
    have hc := (Tab.rising_cons i w t).mp h
    by_cases hki : k < i
    · simp only [Tab.place, hki, if_true]
      refine (Tab.rising_cons k v _).mpr ⟨?_, h⟩
      rintro e (_ | ⟨_, he⟩)
      · exact hki
      · exact hki.trans (hc.1 _ ‹_›)
    · simp only [Tab.place, hki, if_false]
      have hik : i < k := by
        have := hk (i, w) (by simp)
        simp only at this
        omega
      refine (Tab.rising_cons i w _).mpr ⟨?_, ih hc.2 fun e he => hk e (by simp [he])⟩
      intro e he
      rcases Tab.mem_place he with rfl | he'
      · exact hik
      · exact hc.1 e he'

theorem Tab.rising_insert (k : Nat) (v : α) {t : Tab α} (h : Tab.rising t = true) :
    Tab.rising (Tab.insert k v t) = true :=
  Tab.rising_place k v (Tab.rising_erase k h) fun _ he => (Tab.mem_erase he).2

theorem Tab.wf_iff [DecidableEq α] (d : α) (t : Tab α) :
    Tab.wf d t = true ↔ Tab.rising t = true ∧ ∀ e ∈ t, e.2 ≠ d := by
  simp [Tab.wf, Bool.and_eq_true, List.all_eq_true]

/-- What a put leaves in a table is the value put or was there before. -/
theorem Tab.mem_put [DecidableEq α] {d : α} {k : Nat} {v : α} {e : Nat × α} {t : Tab α}
    (h : e ∈ Tab.put d k v t) : e = (k, v) ∨ e ∈ t := by
  unfold Tab.put Tab.insert at h
  split at h
  · exact .inr (Tab.mem_erase h).1
  · exact (Tab.mem_place h).imp_right fun h => (Tab.mem_erase h).1

/-- Putting a value keeps the canonical form. -/
theorem Tab.wf_put [DecidableEq α] (d : α) (k : Nat) (v : α) {t : Tab α} (h : Tab.wf d t = true) :
    Tab.wf d (Tab.put d k v t) = true := by
  rw [Tab.wf_iff] at h ⊢
  unfold Tab.put
  split
  · exact ⟨Tab.rising_erase k h.1, fun e he => h.2 e (Tab.mem_erase he).1⟩
  · next hv =>
    refine ⟨Tab.rising_insert k v h.1, fun e he => ?_⟩
    rcases Tab.mem_place he with rfl | he'
    · exact hv
    · exact h.2 e (Tab.mem_erase he').1

theorem Tab.rising_filter (p : Nat × α → Bool) {t : Tab α} (h : Tab.rising t = true) :
    Tab.rising (t.filter p) = true := by
  induction t with
  | nil => rfl
  | cons e t ih =>
    obtain ⟨i, v⟩ := e
    have hc := (Tab.rising_cons i v t).mp h
    by_cases hp : p (i, v) = true
    · rw [List.filter_cons_of_pos hp]
      exact (Tab.rising_cons i v _).mpr
        ⟨fun e he => hc.1 e (List.mem_filter.mp he).1, ih hc.2⟩
    · rw [List.filter_cons_of_neg hp]
      exact ih hc.2

theorem Tab.rising_append {a b : Tab α} (ha : Tab.rising a = true) (hb : Tab.rising b = true)
    (hab : ∀ e ∈ a, ∀ f ∈ b, e.1 < f.1) : Tab.rising (a ++ b) = true := by
  induction a with
  | nil => exact hb
  | cons e a ih =>
    obtain ⟨i, v⟩ := e
    have hc := (Tab.rising_cons i v a).mp ha
    refine (Tab.rising_cons i v (a ++ b)).mpr
      ⟨fun f hf => ?_, ih hc.2 fun e he => hab e (by simp [he])⟩
    rcases List.mem_append.mp hf with h | h
    · exact hc.1 f h
    · exact hab (i, v) (by simp) f h

theorem Tab.rising_mapValues {β : Type} (f : Nat → α → β) {t : Tab α} (h : Tab.rising t = true) :
    Tab.rising (Tab.mapValues f t) = true := by
  have hmem : ∀ (t : Tab α) (b : Nat), Tab.above b t → Tab.above b (Tab.mapValues f t) := by
    intro t b
    induction t with
    | nil => intro _ e he; simp [Tab.mapValues] at he
    | cons e t ih =>
      obtain ⟨i, v⟩ := e
      intro ha e he
      rcases List.mem_cons.mp he with rfl | he'
      · exact ha (i, v) (by simp)
      · exact ih (fun e he => ha e (by simp [he])) e he'
  induction t with
  | nil => rfl
  | cons e t ih =>
    obtain ⟨i, v⟩ := e
    have hc := (Tab.rising_cons i v t).mp h
    exact (Tab.rising_cons i _ _).mpr ⟨hmem t i hc.1, ih hc.2⟩

/-! ## Runs -/

theorem Tab.mem_ofRun [DecidableEq α] (d : α) {start : Nat} {vs : List α} {e : Nat × α}
    (h : e ∈ Tab.ofRun d start vs) : start ≤ e.1 ∧ e.1 < start + vs.length ∧ e.2 ≠ d := by
  induction vs generalizing start with
  | nil => simp [Tab.ofRun] at h
  | cons v vs ih =>
    by_cases hv : v = d
    · obtain ⟨h1, h2, h3⟩ := ih (by simpa [Tab.ofRun, hv] using h)
      exact ⟨by omega, by simp; omega, h3⟩
    · rcases List.mem_cons.mp (by simpa [Tab.ofRun, hv] using h) with rfl | h'
      · exact ⟨le_refl _, by simp, hv⟩
      · obtain ⟨h1, h2, h3⟩ := ih h'
        exact ⟨by omega, by simp; omega, h3⟩

theorem Tab.rising_ofRun [DecidableEq α] (d : α) (start : Nat) (vs : List α) :
    Tab.rising (Tab.ofRun d start vs) = true := by
  induction vs generalizing start with
  | nil => rfl
  | cons v vs ih =>
    by_cases hv : v = d
    · simpa [Tab.ofRun, hv] using ih (start + 1)
    · simp only [Tab.ofRun, hv, if_false]
      exact (Tab.rising_cons start v _).mpr
        ⟨fun e he => by have := (Tab.mem_ofRun d he).1; omega, ih (start + 1)⟩

/-- Writing a run keeps the canonical form. -/
theorem Tab.wf_writeRun [DecidableEq α] (d : α) (start : Nat) (vs : List α) {t : Tab α}
    (h : Tab.wf d t = true) : Tab.wf d (Tab.writeRun d start vs t) = true := by
  rw [Tab.wf_iff] at h ⊢
  refine ⟨Tab.rising_append (Tab.rising_append (Tab.rising_filter _ h.1) (Tab.rising_ofRun d start vs)
      ?_) (Tab.rising_filter _ h.1) ?_, ?_⟩
  · intro e he f hf
    have h1 := (List.mem_filter.mp he).2
    have h2 := (Tab.mem_ofRun d hf).1
    simp only [decide_eq_true_eq] at h1
    omega
  · intro e he f hf
    have h2 := (List.mem_filter.mp hf).2
    simp only [decide_eq_true_eq] at h2
    rcases List.mem_append.mp he with he | he
    · have h1 := (List.mem_filter.mp he).2
      simp only [decide_eq_true_eq] at h1
      omega
    · have h1 := (Tab.mem_ofRun d he).2.1
      omega
  · intro e he
    rcases List.mem_append.mp he with he | he
    · rcases List.mem_append.mp he with he | he
      · exact h.2 e (List.mem_filter.mp he).1
      · exact (Tab.mem_ofRun d he).2.2
    · exact h.2 e (List.mem_filter.mp he).1

theorem Tab.look_append (k : Nat) (a b : Tab α) :
    Tab.look k (a ++ b) = (Tab.look k a).or (Tab.look k b) := by
  induction a with
  | nil => simp
  | cons e a ih =>
    obtain ⟨i, v⟩ := e
    by_cases h : i = k <;> simp [Tab.look, h, ih]

theorem Tab.look_filter (k : Nat) (p : Nat → Bool) (t : Tab α) :
    Tab.look k (t.filter fun e => p e.1) = if p k then Tab.look k t else none := by
  induction t with
  | nil => simp
  | cons e t ih =>
    obtain ⟨i, v⟩ := e
    by_cases hp : p i = true <;> by_cases hi : i = k <;> simp_all [Tab.look]

theorem Tab.look_ofRun [DecidableEq α] (d : α) (start k : Nat) (vs : List α) :
    (Tab.look k (Tab.ofRun d start vs)).getD d =
      if start ≤ k then vs.getD (k - start) d else d := by
  induction vs generalizing start with
  | nil => simp [Tab.ofRun]
  | cons v vs ih =>
    rcases Nat.lt_trichotomy start k with h | h | h
    · have e : k - start = (k - (start + 1)) + 1 := by omega
      by_cases hv : v = d
      · simp [Tab.ofRun, hv, ih (start + 1), h.le, Nat.succ_le_of_lt h, e]
      · simp [Tab.ofRun, hv, Tab.look, h.ne, ih (start + 1), h.le, Nat.succ_le_of_lt h, e]
    · subst h
      by_cases hv : v = d
      · simp [Tab.ofRun, hv, ih (start + 1)]
      · simp [Tab.ofRun, hv, Tab.look]
    · have h1 : ¬ start ≤ k := by omega
      have h2 : ¬ start + 1 ≤ k := by omega
      have h3 : start ≠ k := by omega
      by_cases hv : v = d <;> simp [Tab.ofRun, hv, Tab.look, h1, h2, h3, ih (start + 1)]

/-- What a table holds after a run of values is written in it: the run on its own indices, and on the
others what it held. -/
theorem Tab.get_writeRun [DecidableEq α] (d : α) (start k : Nat) (vs : List α) (t : Tab α) :
    Tab.get d k (Tab.writeRun d start vs t) =
      if start ≤ k ∧ k < start + vs.length then vs.getD (k - start) d else Tab.get d k t := by
  have key := Tab.look_ofRun d start k vs
  unfold Tab.get Tab.writeRun
  rw [Tab.look_append, Tab.look_append, Tab.look_filter k (fun i => decide (i < start)),
    Tab.look_filter k (fun i => decide (start + vs.length ≤ i))]
  by_cases h1 : k < start
  · have hn : Tab.look k (Tab.ofRun d start vs) = none := by
      cases hl : Tab.look k (Tab.ofRun d start vs) with
      | none => rfl
      | some v =>
        exfalso
        have := (Tab.mem_ofRun d (Tab.mem_of_look hl)).1
        simp only at this
        omega
    have h2 : ¬ start + vs.length ≤ k := by omega
    simp [h1, hn, h2]
  · by_cases h2 : k < start + vs.length
    · have h3 : ¬ start + vs.length ≤ k := by omega
      have h4 : start ≤ k := by omega
      simp only [h1, decide_false, Bool.false_eq_true, if_false, h3, Option.none_or, Option.or_none,
        h4, h2, and_self, if_true]
      rw [key, if_pos h4]
    · have h3 : start + vs.length ≤ k := by omega
      have hn : Tab.look k (Tab.ofRun d start vs) = none := by
        cases hl : Tab.look k (Tab.ofRun d start vs) with
        | none => rfl
        | some v =>
          exfalso
          have := (Tab.mem_ofRun d (Tab.mem_of_look hl)).2.1
          simp only at this
          omega
      simp [h1, h2, h3, hn]

end Sys2Proof.Machine
end

