-- ==== Sys2Proof/Laws/Ops.lean ====
section
/-! SUPPORT. What each shared operation can do, said once. -/

namespace Sys2Proof.Machine

/-! ## The reset guard -/

/-- A command that runs under the guard completes, in the state its effect gives or, with RESETn held
low, in the state it found. -/
theorem running_eq (f : State → State) (s t : State) :
    running f s = .next t ↔ t = if s.resetHeld then s else f s := by
  unfold running
  constructor
  · intro h
    injection h with h
    exact h.symm
  · rintro rfl
    rfl

theorem running_of_high {f : State → State} {s : State} (h : s.resetHeld = false) :
    running f s = .next (f s) := by simp [running, h]

/-! ## Deadlines -/

theorem reached_iff (now due : Sweep) : reached now due = true ↔ (now - due).toNat < 2 ^ 31 := by
  simp [reached]

/-! ## The link clock -/

theorem advanceTo_timer (t : Nat) (l : Lnk) : (advanceTo t l).timer = max t l.timer := by
  unfold advanceTo
  split
  · next h => rw [Nat.max_eq_right h]
  · next h => exact (Nat.max_eq_left (Nat.le_of_not_le h)).symm

/-- The clock moves the timer, the free time and what is driven, and nothing else of LNK. -/
theorem advanceTo_frame (t : Nat) (l : Lnk) :
    advanceTo t l =
      { l with
        timer := (advanceTo t l).timer
        freeTime := (advanceTo t l).freeTime
        dls := (advanceTo t l).dls
        dld := (advanceTo t l).dld
        sentSlot := (advanceTo t l).sentSlot } := by
  unfold advanceTo
  split <;> rfl

@[simp] theorem advanceTo_sync (t : Nat) (l : Lnk) : (advanceTo t l).sync = l.sync := by
  rw [advanceTo_frame]
@[simp] theorem advanceTo_slotRunning (t : Nat) (l : Lnk) :
    (advanceTo t l).slotRunning = l.slotRunning := by rw [advanceTo_frame]
@[simp] theorem advanceTo_markInProgress (t : Nat) (l : Lnk) :
    (advanceTo t l).markInProgress = l.markInProgress := by rw [advanceTo_frame]
@[simp] theorem advanceTo_freeRunDue (t : Nat) (l : Lnk) :
    (advanceTo t l).freeRunDue = l.freeRunDue := by rw [advanceTo_frame]
@[simp] theorem advanceTo_lowSinceRelease (t : Nat) (l : Lnk) :
    (advanceTo t l).lowSinceRelease = l.lowSinceRelease := by rw [advanceTo_frame]
@[simp] theorem advanceTo_begunSlot (t : Nat) (l : Lnk) :
    (advanceTo t l).begunSlot = l.begunSlot := by rw [advanceTo_frame]
@[simp] theorem advanceTo_heard (t : Nat) (l : Lnk) : (advanceTo t l).heard = l.heard := by
  rw [advanceTo_frame]
@[simp] theorem advanceTo_sweep (t : Nat) (l : Lnk) : (advanceTo t l).sweep = l.sweep := by
  rw [advanceTo_frame]
@[simp] theorem advanceTo_lap (t : Nat) (l : Lnk) : (advanceTo t l).lap = l.lap := by
  rw [advanceTo_frame]
@[simp] theorem advanceTo_lapListen (t : Nat) (l : Lnk) :
    (advanceTo t l).lapListen = l.lapListen := by rw [advanceTo_frame]
@[simp] theorem advanceTo_longSeen (t : Nat) (l : Lnk) :
    (advanceTo t l).longSeen = l.longSeen := by rw [advanceTo_frame]
@[simp] theorem advanceTo_txq (t : Nat) (l : Lnk) : (advanceTo t l).txq = l.txq := by
  rw [advanceTo_frame]

/-! ## Transmitting -/

/-- When LNK may begin a parcel in a slot (R6, R13, R14, R16, R17; assumption 44). The clock that moves
to the slot's start may first end a home-slot parcel. -/
theorem maySend_iff (s : State) (slot : Nat) :
    maySend s slot = true ↔
      s.lnk.sync = .follow ∧ s.straps.sn ≠ 0 ∧ s.lnk.slotRunning = true ∧
        s.lnk.markInProgress = false ∧ s.lnk.timer ≤ 320 * slot ∧ s.lnk.begunSlot ≠ some slot ∧
        (advanceTo (320 * slot) s.lnk).dld = none := by
  simp only [maySend, Bool.and_eq_true, Bool.not_eq_true', decide_eq_true_eq, mute,
    decide_eq_false_iff_not, and_assoc, ne_eq]
  exact Iff.rfl

/-- A parcel begun in a slot leaves the slot noted as begun, the timer at its start where it had not
passed it, and all else of LNK as the clock leaves it. -/
theorem driveParcel_eq (x : Tx) (l : Lnk) :
    driveParcel x l =
      { advanceTo (320 * x.slot) l with dld := some x, begunSlot := some x.slot } := rfl

/-! ## Receiving and the layout-origin checks -/

/-- A parcel that reaches its block is taken in the state in which it has arrived. -/
theorem receive_hears {s : State} {rx : Rx} {targeted : Bool} (act : State → State)
    (h : s.hears rx targeted) : receive rx targeted act s = act (s.arrived rx) := by
  obtain ⟨-, hr, h0, hown, ht⟩ := h
  have ht' : (targeted && !forThis s rx) = false := by
    cases targeted
    · rfl
    · simp [ht rfl]
  have hown' : rx.origin ≠ s.own := hown
  simp only [receive, hr, h0, if_false, Bool.not_true, Bool.false_eq_true]
  rw [if_neg hown', ht']
  rfl

@[simp] theorem State.arrived_resetHeld (s : State) (rx : Rx) :
    (s.arrived rx).resetHeld = s.resetHeld := rfl
@[simp] theorem State.arrived_straps (s : State) (rx : Rx) : (s.arrived rx).straps = s.straps := rfl
@[simp] theorem State.arrived_ptb (s : State) (rx : Rx) : (s.arrived rx).ptb = s.ptb := rfl
@[simp] theorem State.arrived_inq (s : State) (rx : Rx) : (s.arrived rx).inq = s.inq := rfl
@[simp] theorem State.arrived_dir (s : State) (rx : Rx) : (s.arrived rx).dir = s.dir := rfl
@[simp] theorem State.arrived_lay (s : State) (rx : Rx) : (s.arrived rx).lay = s.lay := rfl
@[simp] theorem State.arrived_pnt (s : State) (rx : Rx) : (s.arrived rx).pnt = s.pnt := rfl
@[simp] theorem State.arrived_win (s : State) (rx : Rx) : (s.arrived rx).win = s.win := rfl
@[simp] theorem State.arrived_crw (s : State) (rx : Rx) : (s.arrived rx).crw = s.crw := rfl
@[simp] theorem State.arrived_cpl (s : State) (rx : Rx) : (s.arrived rx).cpl = s.cpl := rfl
@[simp] theorem State.arrived_pending (s : State) (rx : Rx) :
    (s.arrived rx).pending = s.pending := rfl

/-- What the arrival of a parcel leaves in LNK. -/
theorem State.arrived_lnk (s : State) (rx : Rx) :
    (s.arrived rx).lnk = hear rx (advanceTo (parcelEnd rx.slot.toNat) s.lnk) := rfl

/-- What the arrival of a parcel leaves in STS: one good parcel counted. -/
theorem State.arrived_sts (s : State) (rx : Rx) :
    (s.arrived rx).sts =
      { s.sts with counters := { s.sts.counters with good := bump s.sts.counters.good } } := rfl

/-- A LAYOUT record of a station the layout origin allows claims the screen and is taken. -/
theorem layoutCheck_allows {s : State} {n : Station} (kind : Nibble) (act : State → State)
    (h : s.allows n) : layoutCheck n kind act s = act (s.claimed n) := by
  obtain h | h := h
  · simp only [layoutCheck, h]; rfl
  · have e : s.claimed n = s := by
      obtain ⟨⟩ := s
      simp only [State.claimed, State.modPtb] at h ⊢
      rename_i ptb _ _ _ _ _ _ _ _ _
      cases ptb
      simp_all
    simp [layoutCheck, h, e]

/-- A COMMAND of a station the layout origin allows is taken as it is. -/
theorem commandCheck_allows {s : State} {n : Station} (code : Nibble) (act : State → State)
    (h : s.allows n) : commandCheck n code act s = act s := by
  obtain h | h := h <;> simp [commandCheck, h]

theorem layoutCheck_foreign {s : State} {n o : Station} (kind : Nibble) (act : State → State)
    (h : s.ptb.origin = some o) (hn : o ≠ n) :
    layoutCheck n kind act s = s.refuse 7 kind .foreign n := by simp [layoutCheck, h, hn]

theorem commandCheck_foreign {s : State} {n o : Station} (code : Nibble) (act : State → State)
    (h : s.ptb.origin = some o) (hn : o ≠ n) :
    commandCheck n code act s = s.refuse 2 code .foreign n := by simp [commandCheck, h, hn]

/-! ## Windows, paint states and records -/

/-- A window index beyond the eight holds no window. -/
theorem State.window_of_windowsAgree {s : State} (h : s.windowsAgree) {w : Nat} (hw : 8 ≤ w) :
    s.window w = resetWindow := by
  unfold State.window Tab.get
  cases hl : Tab.look w s.win with
  | none => rfl
  | some v => exact absurd (h.2.1 _ (Tab.mem_of_look hl)) (Nat.not_lt.2 hw)

/-- A change of one of the eight windows leaves no other index in the table. -/
theorem State.modWindow_indices {s : State} (h : ∀ e ∈ s.win, e.1 < 8) {w : Nat} (hw : w < 8)
    (f : Window → Window) : ∀ e ∈ (s.modWindow w f).win, e.1 < 8 := by
  intro e he
  obtain rfl | he := Tab.mem_put he
  · exact hw
  · exact h e he

/-- A window changed reads as changed, and every other window as it was. -/
theorem State.window_modWindow (s : State) (w u : Nat) (f : Window → Window) :
    (s.modWindow w f).window u = if u = w then f (s.window w) else s.window u :=
  Tab.get_put _ _ _ _ _

/-- A paint state changed reads as changed, and every other as it was. -/
theorem State.paintState_modPaint (s : State) (i j : Nat) (f : PaintState → PaintState) :
    (s.modPaint i f).paintState j = if j = i then f (s.paintState i) else s.paintState j :=
  Tab.get_put _ _ _ _ _

/-- A record in its place is read at its key, and every other key as it was. -/
theorem State.record?_setRecord (s : State) (r : Record) (k : Key) :
    (s.setRecord r).record? k = if k = r.key then some r else s.record? k := by
  have : (k.toNat = r.key.toNat) = (k = r.key) := by
    rw [eq_iff_iff]; exact BitVec.toNat_inj
  simp only [State.record?, State.setRecord, State.modDir, Tab.look_insert, this]

/-! ## The plane -/

/-- Two cells within their rows have one index only when they are one cell. -/
theorem planeAddr_inj {r c r' c' : Nat} (hc : c < 256) (hc' : c' < 256) :
    planeAddr r c = planeAddr r' c' ↔ r = r' ∧ c = c' := by
  unfold planeAddr
  omega

/-- Cells written in a row are read there, and every other cell as it was. -/
theorem get_writeCells (row column : Nat) (cells : List Cell) (plane : Tab Cell) (r c : Nat)
    (hc : c < 256) (hl : column + cells.length ≤ 256) :
    Tab.get resetCell (planeAddr r c) (writeCells row column cells plane) =
      if r = row ∧ column ≤ c ∧ c < column + cells.length then cells.getD (c - column) resetCell
      else Tab.get resetCell (planeAddr r c) plane := by
  unfold writeCells
  rw [Tab.get_writeRun]
  by_cases h : r = row ∧ column ≤ c ∧ c < column + cells.length
  · obtain ⟨rfl, h1, h2⟩ := h
    have h3 : planeAddr r column ≤ planeAddr r c ∧
        planeAddr r c < planeAddr r column + cells.length := by unfold planeAddr; omega
    have h4 : planeAddr r c - planeAddr r column = c - column := by unfold planeAddr; omega
    rw [if_pos h3, if_pos ⟨rfl, h1, h2⟩, h4]
  · have h3 : ¬ (planeAddr row column ≤ planeAddr r c ∧
        planeAddr r c < planeAddr row column + cells.length) := by
      unfold planeAddr
      omega
    rw [if_neg h3, if_neg h]

/-- A write keeps the plane in canonical form. -/
theorem wf_writeCells (row column : Nat) (cells : List Cell) {plane : Tab Cell}
    (h : Tab.wf resetCell plane = true) :
    Tab.wf resetCell (writeCells row column cells plane) = true := Tab.wf_writeRun _ _ _ h

/-- A clear of the plane keeps it in canonical form. -/
theorem wf_clearPlane (keep : Option Nat) {plane : Tab Cell} (h : Tab.wf resetCell plane = true) :
    Tab.wf resetCell (clearPlane keep plane) = true := by
  rw [Tab.wf_iff] at h ⊢
  refine ⟨Tab.rising_filter _ h.1, fun e he => h.2 e ?_⟩
  exact (List.mem_filter.mp he).1

/-- A change of one paint state keeps the paint states in canonical form. -/
theorem wf_modPaint (i : Nat) (f : PaintState → PaintState) {s : State}
    (h : Tab.wf initialPaint s.pnt.states = true) :
    Tab.wf initialPaint (s.modPaint i f).pnt.states = true := Tab.wf_put _ _ _ h

/-- The plane after reset is in canonical form. -/
theorem wf_resetPlane : Tab.wf resetCell State.reset.cpl.plane = true := rfl

/-! ## The paint queue -/

/-- A request taken adds its field to the queue and takes no other away. -/
theorem mem_enqueueReq (r : PaintReq) (l : List PaintReq) (i : Nat) :
    (∃ q ∈ enqueueReq r l, q.index = i) ↔ (∃ q ∈ l, q.index = i) ∨ r.index = i := by
  induction l with
  | nil => simp [enqueueReq]
  | cons q t ih =>
    by_cases h : q.index = r.index
    · by_cases hr : q.kind.rank < r.kind.rank
      · simp only [enqueueReq, h, hr, if_true, List.mem_cons]
        constructor
        · rintro ⟨p, rfl | hp, rfl⟩
          · exact .inr rfl
          · exact .inl ⟨p, .inr hp, rfl⟩
        · rintro (⟨p, rfl | hp, rfl⟩ | rfl)
          · exact ⟨r, .inl rfl, h.symm⟩
          · exact ⟨p, .inr hp, rfl⟩
          · exact ⟨r, .inl rfl, rfl⟩
      · simp only [enqueueReq, h, hr, if_true, if_false]
        constructor
        · exact .inl
        · rintro (hp | rfl)
          · exact hp
          · exact ⟨q, List.mem_cons_self, h⟩
    · simp only [enqueueReq, h, if_false]
      constructor
      · rintro ⟨p, hp, rfl⟩
        obtain rfl | hp := List.mem_cons.mp hp
        · exact .inl ⟨p, List.mem_cons_self, rfl⟩
        · obtain ⟨p', hp', e⟩ | e := (ih.mp ⟨p, hp, rfl⟩ : (∃ q ∈ t, q.index = p.index) ∨ _)
          · exact .inl ⟨p', List.mem_cons_of_mem _ hp', e⟩
          · exact .inr e
      · intro hh
        have : (∃ p ∈ t, p.index = i) ∨ r.index = i ∨ q.index = i := by
          obtain ⟨p, hp, e⟩ | e := hh
          · obtain rfl | hp := List.mem_cons.mp hp
            · exact .inr (.inr e)
            · exact .inl ⟨p, hp, e⟩
          · exact .inr (.inl e)
        obtain hp | hp | hp := this
        · obtain ⟨p, hp, e⟩ := ih.mpr (.inl hp)
          exact ⟨p, List.mem_cons_of_mem _ hp, e⟩
        · obtain ⟨p, hp, e⟩ := ih.mpr (.inr hp)
          exact ⟨p, List.mem_cons_of_mem _ hp, e⟩
        · exact ⟨q, List.mem_cons_self, hp⟩

/-- Requests taken add their fields to the queue and take none away. -/
theorem mem_enqueueAll (kind : PaintKind) (indices : List Nat) (l : List PaintReq) (i : Nat) :
    (∃ q ∈ enqueueAll kind indices l, q.index = i) ↔ (∃ q ∈ l, q.index = i) ∨ i ∈ indices := by
  unfold enqueueAll
  induction indices generalizing l with
  | nil => simp
  | cons j t ih =>
    rw [List.foldl_cons, ih, mem_enqueueReq, List.mem_cons, or_assoc]
    simp only [eq_comm (a := j)]

/-- The fields of the queue stay in their order, a new one at the tail. -/
theorem enqueueReq_indices (r : PaintReq) (l : List PaintReq) :
    (enqueueReq r l).map PaintReq.index =
      if r.index ∈ l.map PaintReq.index then l.map PaintReq.index
      else l.map PaintReq.index ++ [r.index] := by
  induction l with
  | nil => simp [enqueueReq]
  | cons q t ih =>
    by_cases h : q.index = r.index
    · by_cases hr : q.kind.rank < r.kind.rank <;> simp [enqueueReq, h, hr]
    · have h' : ¬ r.index = q.index := fun e => h e.symm
      simp only [enqueueReq, h, if_false, List.map_cons, ih, List.mem_cons, h', false_or]
      split <;> simp

/-- The queue goes on holding no field twice. -/
theorem nodup_enqueueAll (kind : PaintKind) (indices : List Nat) {l : List PaintReq}
    (h : (l.map PaintReq.index).Nodup) :
    ((enqueueAll kind indices l).map PaintReq.index).Nodup := by
  unfold enqueueAll
  induction indices generalizing l with
  | nil => exact h
  | cons j t ih =>
    refine ih ?_
    rw [enqueueReq_indices]
    split
    · exact h
    · next hj =>
      rw [List.nodup_append]
      refine ⟨h, List.nodup_singleton _, ?_⟩
      intro a ha b hb
      rw [List.mem_singleton] at hb
      rintro rfl
      exact hj (hb ▸ ha)

/-! ## The compose burst list -/

/-- The numbers kept are those of the list, each once. -/
theorem eachOnce_spec (l : List Nat) : (eachOnce l).Nodup ∧ ∀ n, n ∈ eachOnce l ↔ n ∈ l := by
  have h : ∀ l m : List Nat, m.Nodup →
      (l.foldl (fun m p => if m.contains p then m else m ++ [p]) m).Nodup ∧
        ∀ n, n ∈ l.foldl (fun m p => if m.contains p then m else m ++ [p]) m ↔ n ∈ m ∨ n ∈ l := by
    intro l
    induction l with
    | nil => intro m hm; simpa using hm
    | cons p l ih =>
      intro m hm
      simp only [List.foldl_cons]
      split
      · next hp =>
        obtain ⟨h1, h2⟩ := ih m hm
        refine ⟨h1, fun n => ?_⟩
        rw [h2, List.mem_cons]
        have := List.contains_iff_mem.1 hp
        aesop
      · next hp =>
        have hn : p ∉ m := fun h => hp (List.contains_iff_mem.2 h)
        obtain ⟨h1, h2⟩ := ih (m ++ [p])
          (List.nodup_append.2 ⟨hm, List.nodup_singleton p, by
            intro a ha b hb; rw [List.mem_singleton] at hb; subst hb; exact fun e => hn (e ▸ ha)⟩)
        refine ⟨h1, fun n => ?_⟩
        simp only [h2, List.mem_append, List.mem_cons, List.not_mem_nil, or_false, or_assoc]
  simpa [eachOnce] using h l [] List.nodup_nil

/-- What the unbinding of a field clears: on a shown page, above the window's height, its own cells. -/
theorem unbindClear_shown {s : State} {f : Field} {w : Nat} {v : Window}
    (h : s.showing f.page = some (w, v)) (hr : f.row < v.height) :
    unbindClear s f = [clearBurst .fieldClear v f.row f.column f.width] := by
  simp [unbindClear, h, hr]

theorem length_closeLast (a : After) (l : List Burst) : (closeLast a l).length = l.length := by
  induction l with
  | nil => rfl
  | cons b t ih =>
    cases t with
    | nil => rfl
    | cons c u => simp [closeLast, ih]

/-- Bursts handed over either all join the list, the last carrying what follows; or there is none, and
what follows is done at once; or the room runs out before the last, which is then written at once. -/
theorem handOver_cases (bursts : List Burst) (a : After) (s : State) :
    (bursts ≠ [] ∧ s.cpl.bursts.length + bursts.length ≤ burstRoom ∧
        handOver bursts a s = listBursts (closeLast a bursts) s) ∨
      (bursts = [] ∧ handOver bursts a s = runAfter a s) ∨
      (bursts ≠ [] ∧ burstRoom < s.cpl.bursts.length + bursts.length ∧
        handOver bursts a s =
          runAfter a (listBursts (bursts.take (burstRoom - s.cpl.bursts.length)) s)) := by
  unfold handOver
  cases bursts with
  | nil =>
    refine .inr (.inl ⟨rfl, ?_⟩)
    simp [listBursts, State.modCpl]
  | cons b l =>
    by_cases h : burstRoom - s.cpl.bursts.length < (b :: l).length
    · refine .inr (.inr ⟨by simp, by omega, ?_⟩)
      simp only [h, decide_true, Bool.or_true, if_true]
    · refine .inl ⟨by simp, ?_, ?_⟩
      · simp only [List.length_cons] at h ⊢
        omega
      · simp only [h, List.isEmpty_cons, decide_false, Bool.or_false, Bool.false_eq_true, if_false]

/-! ## Ending a page -/

/-- Bursts are withdrawn exactly from a window with a compose in flight. -/
theorem abandonBursts_eq (w : Nat) {s t : State} (h : t.win = s.win) :
    abandonBursts w t =
      if (s.window w).state = .composing then withdrawBursts w t else t := by
  have hw : t.window w = s.window w := by rw [State.window, h]; rfl
  rw [abandonBursts, hw]

/-- Ending a page changes the Painter, the window and, where a compose is in flight, the list and the
granted burst; the window is then EMPTY, and the paint queue stands (R146, R179). -/
theorem endPage_cases (w : Nat) (s : State) :
    ((s.window w).page = none ∧ endPage w s = s) ∨
    ((s.window w).page.isSome = true ∧
      (endPage w s).window w = emptied (s.window w) ∧
      (∀ u, u ≠ w → (endPage w s).window u = s.window u) ∧
      (endPage w s).cpl =
        (if (s.window w).state = .composing then (withdrawBursts w s).cpl else s.cpl) ∧
      (endPage w s).pnt.queue = s.pnt.queue ∧
      endPage w s =
        { s with pnt := (endPage w s).pnt, win := (endPage w s).win, cpl := (endPage w s).cpl }) := by
  cases hp : (s.window w).page with
  | none => exact .inl ⟨rfl, by simp [endPage, hp]⟩
  | some p =>
    have hc := abandonBursts_eq w (s := s)
      (t := (unlightPage p s).modPnt fun q => { q with burst := q.burst.bind (releaseBurst p) }) rfl
    simp only [endPage, hp, hc]
    refine .inr ⟨rfl, ?_⟩
    split <;> refine ⟨?_, fun u hu => ?_, rfl, rfl, rfl⟩ <;> rw [State.window_modWindow]
    · exact if_pos rfl
    · exact if_neg hu
    · exact if_pos rfl
    · exact if_neg hu

end Sys2Proof.Machine
end

