-- ==== Sys2Proof/Tests/Slice0.lean ====
section
/-! SUPPORT. Tests: the checks of WellFormed, the manual's worked examples and boundary values, and for
each statement with hypotheses a state that meets all of them (`witness_…`). Expected values come from
the rule named beside each. -/

namespace Sys2Proof.Tests

open Sys2Proof.Machine

/-! ## Small states -/

/-- Painter 6 in FOLLOW with the sweep timer just restarted. -/
def base : State := State.reset.modLnk fun l => { l with sync := .follow, slotRunning := true }

/-- A parcel of station 2 to all stations, in open slot 40. -/
def rx : Rx := { slot := 40, origin := 2, target := 0 }

/-- The state a command leaves. -/
def after (i : Instr) (s : State) : State :=
  match exec i s with
  | .next t => t
  | .fault _ => s
  | .refused _ => s

/-- A BID field of key 0x101 at row 1, columns 10..16 of page 3. -/
def fld : Field :=
  { page := 3, row := 1, column := 10, width := 7, key := 0x101, selector := .stored .bid,
    format := .dec (some 2), right := true, plus := false, grouping := false, policy := 0,
    throttle := 10, subst := .live, fg := 15, bg := 1, blink := false, localMark := false }

/-- The field's record: LIVE from station 2, alternate 3, at sequence number 5, BID 123.46. -/
def rcd : Record :=
  { key := 0x101, state := .live, source := some 2, alternate := some 3, lastSeq := some 5,
    items := [(0, { content := .price 12346 2, clamped := false })], image := none, deadline := none,
    marks := 0, refs := 1 }

/-- The base state with the field bound and a given record. -/
def keyedWith (r : Record) : State :=
  { base with lay := { defaultLay with fields := [(0, fld)] }, dir := { records := [(0x101, r)], refresh := [] } }

def keyed : State := keyedWith rcd

/-- Window 0 at plane rows 2..11, showing page 3. -/
def win0 : Window := { resetWindow with top := 2, height := 10, state := .showing, page := some 3 }

/-- The keyed state with a window 0. -/
def shownIn (v : Window) : State := { keyed with win := [(0, v)] }

/-- An intake entry of the key from station 2, in sequence after the record. -/
def entry : IntakeEntry :=
  { key := 0x101, origin := 2, firstSeq := 6, lastSeq := 6, items := [(0, { value := 12347, scale := 2 })],
    imageStart := false, imageEnd := false, gap := false, isOpen := true }

/-- A TICK of the key with one BID. -/
def tck (sub : Nibble) (seq : Seq) : TickBody :=
  { sub := sub, key := 0x101, seq := seq, count := 1,
    items := [⟨0, 2, 12347⟩, ⟨0, 0, 0⟩, ⟨0, 0, 0⟩, ⟨0, 0, 0⟩] }

/-- A burst of the field as it stands when written. -/
def burst (kind : PaintKind) (mode : PolicyMode) (d : Direction) : PaintBurst :=
  { index := 0, page := 3, kind := kind, textKind := .value, value := .present (.price 12346 2), dir := d,
    mode := mode, hold := 512, touch := false, row := 3, column := 10, cells := [], stage := .written,
    unbound := false, released := false }

/-- A compose burst of one cell. -/
def bst : Burst :=
  { kind := .rowClear, row := 2, column := 0, cells := [blankCell 4], owner := .window 0, after := .nothing }

/-! ## What the small states meet -/

/-- A layout of fields of one key goes with the record of that key. -/
theorem recordsMatch_fields {s : State} {r : Record} {fs : Tab Field} (hf : s.lay.fields = fs)
    (hs : Tab.rising fs = true) (hn : fs ≠ []) (ha : ∀ e ∈ fs, e.2.key = 0x101)
    (hp : s.lay.prog = []) (hm : s.ptb.marks = []) (hd : s.dir.records = [(0x101, r)])
    (hk : r.key = 0x101) (hr : r.refs = fs.length) (h0 : r.marks = 0) : s.recordsMatch := by
  have hc : ∀ k : Key, refCount s.lay k = if (0x101 : Key) = k then fs.length else 0 := by
    intro k
    simp only [refCount, hf, hp, List.filter_nil, List.length_nil, Nat.add_zero]
    split
    · subst k
      rw [List.filter_eq_self.2 fun e he => decide_eq_true (ha e he)]
    · next h =>
      rw [List.filter_eq_nil_iff.2 fun e he => by
        rw [ha e he]; simpa using h]
      rfl
  refine ⟨by rw [hf]; exact hs, by rw [hp]; rfl, by rw [hm]; rfl, by rw [hd]; rfl, ?_, ?_⟩
  · intro e he
    rw [hd, List.mem_singleton] at he
    subst he
    refine ⟨by rw [hk]; rfl, ?_, ?_⟩
    · simp only [hc, hk, hr, if_true]
    · simp [markCount, hm, h0]
  · intro k
    have hl : s.record? k = if (0x101 : Key) = k then some r else none := by
      have : (0x101 = k.toNat) = ((0x101 : Key) = k) := by
        rw [eq_iff_iff, ← BitVec.toNat_inj]; rfl
      simp only [State.record?, hd, Tab.look, this]
    rw [hl, hc]
    split <;> simp [List.length_pos_iff, hn]

/-- The layout of one field goes with the record of its key. -/
theorem recordsMatch_keyed {s : State} {r : Record} (hf : s.lay.fields = [(0, fld)])
    (hp : s.lay.prog = []) (hm : s.ptb.marks = []) (hd : s.dir.records = [(0x101, r)])
    (hk : r.key = 0x101) (hr : r.refs = 1) (h0 : r.marks = 0) : s.recordsMatch :=
  recordsMatch_fields hf rfl (List.cons_ne_nil _ _) (by simp [fld]) hp hm hd hk hr h0

/-- A window table of one window that agrees is sound. -/
theorem windowsSound_one {s : State} {v : Window} (h : s.win = [(0, v)]) (hv : v ≠ resetWindow)
    (ha : v.agrees) : s.windowsSound := by
  have hw : ∀ w, s.window w = if 0 = w then v else resetWindow := by
    intro w
    simp only [State.window, Tab.get, h, Tab.look]
    split <;> rfl
  refine ⟨⟨?_, ?_⟩, ?_⟩
  · rw [h, Tab.wf_iff]
    refine ⟨rfl, fun e he => ?_⟩
    rw [List.mem_singleton] at he
    subst he
    exact hv
  · refine ⟨?_, ?_⟩ <;> intro e he <;> rw [h, List.mem_singleton] at he <;> subst he
    · exact Nat.zero_lt_succ 7
    · exact ha
  · have hp : ∀ w p, s.shows w p → 0 = w := by
      intro w p hs
      by_contra hne
      rw [State.shows, hw, if_neg hne] at hs
      exact hs.1 rfl
    intro w₁ w₂ p h₁ h₂
    rw [← hp _ _ h₁, ← hp _ _ h₂]

/-- With no window the table is sound. -/
theorem windowsSound_none {s : State} (h : s.win = []) : s.windowsSound := by
  refine ⟨⟨by rw [h]; rfl, by simp [h], by simp [h]⟩, ?_⟩
  intro w₁ w₂ p h₁ _
  rw [State.shows, State.window, h] at h₁
  exact absurd rfl h₁.1

/-- With window 0 alone no other window shows a page. -/
theorem not_shows_one {s : State} {v : Window} (h : s.win = [(0, v)]) {w : Nat} (hw : w ≠ 0) (p : Nat) :
    ¬ s.shows w p := by
  rw [State.shows, State.window, h]
  have : (0 = w) = False := by simp [Ne.symm hw]
  simp only [Tab.get, Tab.look, this, if_false]
  exact fun hs => hs.1 rfl

/-- No flash is running. -/
theorem flashesListed_none {s : State} (hs : s.pnt.states = []) (hh : s.pnt.highlights = []) :
    s.flashesListed := by
  refine ⟨by simp [hh], fun i => ?_⟩
  simp [State.paintState, hs, hh, Tab.get, initialPaint, listed]

/-- One flash is running, at index 0. -/
theorem flashesListed_one {s : State} {p : PaintState} {due : Sweep} (hs : s.pnt.states = [(0, p)])
    (hh : s.pnt.highlights = [⟨0, due⟩]) (hp : p.flash ≠ .none) : s.flashesListed := by
  refine ⟨by simp [hh], fun i => ?_⟩
  by_cases hi : 0 = i
  · simp [State.paintState, hs, hh, Tab.get, Tab.look, listed, hi, hp]
  · simp [State.paintState, hs, hh, Tab.get, Tab.look, listed, hi, initialPaint]

theorem keyed_recordsMatch : keyed.recordsMatch := recordsMatch_keyed rfl rfl rfl rfl rfl rfl rfl

/-! ## Well-formed commands: one ill-formed command for each check -/

theorem test_wf_edge : Instr.wellFormed (.sweepMarkRecognised 81921) = false := by decide
theorem test_wf_low : Instr.wellFormed (.markClassified 7) = false ∧
    Instr.wellFormed (.markClassified 321) = false := by decide
theorem test_wf_open_slot : Instr.wellFormed (.openSlotAttempt 15) = false := by decide
theorem test_wf_home_slot : Instr.wellFormed (.homeSlotReport 0) = false := by decide
theorem test_wf_crc_slot : Instr.wellFormed (.crcError 0) = false := by decide
theorem test_wf_malformed_slot : Instr.wellFormed (.malformedParcel 0) = false := by decide
theorem test_wf_rx_slot : Instr.wellFormed (.release ⟨0, 2, 0⟩ 0) = false := by decide
theorem test_wf_rx_origin : Instr.wellFormed (.release ⟨40, 0, 0⟩ 0) = false := by decide
theorem test_wf_tick_items : Instr.wellFormed (.tick rx ⟨0, 0, 0, 0, []⟩) = false := by decide
theorem test_wf_label_chars :
    Instr.wellFormed (.label rx ⟨0, 0, 0, 0, 0, 0, false, 0, 0, [0x20]⟩) = false := by decide
theorem test_wf_condlabel_chars : Instr.wellFormed (.condlabel rx ⟨0, [0x20]⟩) = false := by decide
theorem test_wf_crawlprog_chars : Instr.wellFormed (.crawlprog rx ⟨0, false, 0, []⟩) = false := by decide
theorem test_wf_crawltext_chars :
    Instr.wellFormed (.crawltext rx ⟨1, 0, 0, false, [0x41]⟩) = false := by decide
theorem test_wf_rising_edge : Instr.wellFormed (.stuckLineRisingEdge 81921) = false := by decide
theorem test_wf_falling_edge : Instr.wellFormed (.unrecognisedFallingEdge 81921) = false := by decide
theorem test_wf_accepts : Instr.wellFormed (.tick rx (tck 0 6)) = true := by decide

/-! ## Witnesses: the block as a whole, and the link -/

theorem witness_StepTakesFront :
    { base with pending := [.lapStart] }.pending = .lapStart :: [] := rfl

theorem witness_ResetLeavesValues : (after .resetnAssert base).resetHeld = true := by decide

/-- Station 6 with the line free, about to be at a bit time of its sweep. -/
def withLnk (f : Lnk → Lnk) : State := base.modLnk f

/-- In STUCK with the line high since the timer's restart. -/
def stuckFree (n : Nat) : State := withLnk fun l => { l with sync := .stuck, freeTime := some n }

theorem witness_MarkRestartsTimer_follow :
    base.resetHeld = false ∧ base.lnk.markInProgress = false ∧ base.lnk.sync ≠ .stuck := by decide
theorem witness_MarkRestartsTimer_stuck :
    (stuckFree 0).resetHeld = false ∧ (stuckFree 0).lnk.markInProgress = false ∧
      (stuckFree 0).lnk.sync = .stuck ∧ (advanceTo 320 (stuckFree 0).lnk).lineFree = true := by decide

/-- A mark in progress, window 0 showing page 3 with a running carousel. -/
def marked : State :=
  { withLnk fun l => { l with markInProgress := true } with
    win := [(0, { win0 with carousel := .running, dwell := 2 })] }

theorem win0_agrees : win0.agrees := by
  unfold Window.agrees
  decide

theorem witness_ClassifiedMarkStartsSweep :
    marked.resetHeld = false ∧ marked.lnk.markInProgress = true ∧ (8 ≤ 8 ∧ 8 ≤ 320) ∧
      (8 ≤ 32 ∧ 32 ≤ 320) ∧ (8 ≤ 33 ∧ 33 ≤ 320) ∧ (8 ≤ 320 ∧ 320 ≤ 320) ∧ marked.windowsAgree :=
  ⟨rfl, rfl, by decide, by decide, by decide, by decide,
    (windowsSound_one (v := { win0 with carousel := .running, dwell := 2 }) rfl (by decide)
      (by unfold Window.agrees; decide)).1⟩

/-- A dwell of 1 and one of 2 count at a sweep start; a STOPPED one does not. -/
theorem witness_ClassifiedMarkStartsSweep_dwell :
    let v := fun c d => { win0 with carousel := c, dwell := d }
    (v .running 1).carousel = .running ∧ 0 < (v .running 1).dwell ∧ (v .running 1).state ≠ .composing ∧
      (v .running 1).advanceDue = false ∧ (v .running 1).dwell = 1 ∧ (v .running 2).dwell ≠ 1 ∧
      (v .stopped 2).carousel ≠ .running := by decide

/-- n WAITING requests and one SENT whose deadline is one sweep after the next. -/
def waitingReqs (n : Nat) : List RefreshEntry :=
  List.replicate n { key := 0x101, target := 2, second := false, state := .waiting, inPass := false } ++
    [{ key := 0x102, target := 2, second := false, state := .sent 2, inPass := false }]

/-- A state with n WAITING requests and q parcels in the transmit queue. -/
def requesting (n q : Nat) (s : State) : State :=
  { s with
    dir := { s.dir with refresh := waitingReqs n }
    lnk := { s.lnk with txq := List.replicate q (refreshParcel 6 2 1) } }

theorem waitingReqs_unreached (n : Nat) :
    ∀ e ∈ waitingReqs n, ∀ due, e.state = .sent due → 2 ^ 31 ≤ ((0 : Sweep) + 1 - due).toNat := by
  intro e he due hs
  rcases List.mem_append.1 he with h | h
  · rw [List.eq_of_mem_replicate h] at hs
    cases hs
  · rw [List.mem_singleton.1 h] at hs
    cases hs
    decide

/-- Two WAITING requests that find room at six parcels, and do not all at seven and at eight. -/
theorem witness_ClassifiedMarkStartsSweep_requests :
    let s := fun q => requesting 2 q marked
    (∀ e ∈ (s 6).dir.refresh, ∀ due, e.state = .sent due → 2 ^ 31 ≤ ((s 6).lnk.sweep + 1 - due).toNat) ∧
      (s 6).lnk.txq.length + ((s 6).dir.refresh.filter fun e => e.state = .waiting).length ≤ 8 ∧
      ¬ (s 7).lnk.txq.length + ((s 7).dir.refresh.filter fun e => e.state = .waiting).length ≤ 8 ∧
      8 ≤ (s 8).lnk.txq.length :=
  ⟨waitingReqs_unreached 2, by decide, by decide, by decide⟩

theorem witness_StuckLineEntersStuck_mark :
    marked.resetHeld = false ∧ marked.lnk.sync ≠ .stuck ∧ marked.lnk.markInProgress = true := by decide
theorem witness_StuckLineEntersStuck_low :
    (State.released Config.resetStraps true []).resetHeld = false ∧
      (State.released Config.resetStraps true []).lnk.sync = .listen ∧
      (State.released Config.resetStraps true []).lnk.lowSinceRelease = true := by decide
/-- A mark recognised in STUCK on a free line, which STUCK_LINE finds in progress. -/
theorem witness_StuckLineEntersStuck_again :
    let s := after (.sweepMarkRecognised 320) (stuckFree 0)
    s.resetHeld = false ∧ s.lnk.sync = .stuck ∧ s.lnk.markInProgress = true ∧ s.sts.syncSeen = false := by
  decide

/-- A mute listener in FOLLOW. -/
def muteBase : State := { base with straps := { base.straps with sn := 0 } }

theorem witness_TimerExpiryDrivesMark_follow :
    base.resetHeld = false ∧ base.lnk.sync = .follow ∧ base.lnk.slotRunning = true ∧
      base.lnk.markInProgress = false ∧ base.lnk.freeRunDue = false ∧ base.lnk.dls = none ∧
      base.straps.sn ≠ 0 := by decide
theorem witness_TimerExpiryDrivesMark_mute :
    muteBase.resetHeld = false ∧ muteBase.lnk.sync = .follow ∧ muteBase.lnk.slotRunning = true ∧
      muteBase.lnk.markInProgress = false ∧ muteBase.lnk.freeRunDue = false ∧ muteBase.lnk.dls = none ∧
      muteBase.straps.sn = 0 := by decide
theorem witness_TimerExpiryDrivesMark_listen :
    State.reset.resetHeld = false ∧ State.reset.lnk.sync = .listen ∧
      State.reset.lnk.markInProgress = false ∧ State.reset.lnk.lowSinceRelease = false ∧
      State.reset.lnk.lapListen = true ∧ State.reset.lnk.dls = none ∧ State.reset.straps.sn ≠ 0 := by
  decide
theorem witness_TimerExpiryDrivesMark_listen_mute :
    (State.released { Config.resetStraps with sn := 0 } false []).lnk.sync = .listen ∧
      (State.released { Config.resetStraps with sn := 0 } false []).straps.sn = 0 := by decide

theorem witness_FreeRunStartsSweep_follow :
    (muteBase.modLnk fun l => { l with freeRunDue := true }).resetHeld = false ∧
      (muteBase.modLnk fun l => { l with freeRunDue := true }).lnk.freeRunDue = true ∧
      (muteBase.modLnk fun l => { l with freeRunDue := true }).lnk.sync = .follow := by decide
theorem witness_FreeRunStartsSweep_requests :
    let s := requesting 2 6 (muteBase.modLnk fun l => { l with freeRunDue := true })
    (∀ e ∈ s.dir.refresh, ∀ due, e.state = .sent due → 2 ^ 31 ≤ (s.lnk.sweep + 1 - due).toNat) ∧
      s.lnk.freeRunDue = true ∧ s.windowsAgree :=
  ⟨waitingReqs_unreached 2, rfl, (windowsSound_none rfl).1⟩
/-- The line is free at the timer expiry after 320 bit times high, and not after 319. -/
theorem witness_FreeRunStartsSweep_stuck :
    let at_ := fun n => withLnk fun l => { l with sync := .stuck, timer := 20480, freeTime := some n }
    (at_ 320).resetHeld = false ∧ (at_ 320).lnk.sync = .stuck ∧ (at_ 320).lnk.markInProgress = false ∧
      (at_ 320).lnk.dls = none ∧ (at_ 320).straps.sn ≠ 0 ∧
      (advanceTo 20480 (at_ 320).lnk).lineFree = true ∧
      (advanceTo 20480 (at_ 319).lnk).lineFree = false := by decide

theorem witness_LineEdgesAndLapListen_rise :
    (withLnk fun l => { l with sync := .stuck, freeTime := none }).resetHeld = false ∧
      (withLnk fun l => { l with sync := .stuck, freeTime := none }).lnk.markInProgress = false ∧
      (withLnk fun l => { l with sync := .stuck, freeTime := none }).lnk.freeTime = none := by decide
/-- A falling edge while the free time runs, and one while the line is free. -/
theorem witness_LineEdgesAndLapListen_fall :
    (stuckFree 0).resetHeld = false ∧ (stuckFree 0).lnk.sync = .stuck ∧
      (stuckFree 0).lnk.markInProgress = false ∧ (advanceTo 319 (stuckFree 0).lnk).lineFree = false ∧
      (advanceTo 320 (stuckFree 0).lnk).lineFree = true := by decide
theorem witness_LineEdgesAndLapListen_long :
    (withLnk fun l => { l with longSeen := true }).resetHeld = false ∧
      (withLnk fun l => { l with longSeen := true }).lnk.longSeen = true := by decide
theorem witness_LineEdgesAndLapListen_sweeps :
    (withLnk fun l => { l with sweep := 2048 }).resetHeld = false ∧
      2048 ≤ (withLnk fun l => { l with sweep := 2048 }).lnk.sweep.toNat := by decide

theorem witness_HomeSlotSends_presence :
    base.resetHeld = false ∧ base.lnk.sync = .follow ∧ base.straps.sn ≠ 0 ∧
      base.lnk.slotRunning = true ∧ base.lnk.markInProgress = false ∧
      base.lnk.timer ≤ 320 * base.own.toNat ∧ base.lnk.dld = none ∧
      base.lnk.begunSlot ≠ some base.own.toNat ∧ base.crw.handoffDue = false := by decide
/-- The home slot begun already, a station in LISTEN, one in STUCK, a mute listener, a mark in progress. -/
theorem witness_HomeSlotSends_withheld :
    let s := after .homeSlotClash (after .homeSlotTransmit base)
    s.resetHeld = false ∧ s.lnk.begunSlot = some s.own.toNat ∧ State.reset.lnk.sync ≠ .follow ∧
      (stuckFree 0).lnk.sync ≠ .follow ∧ muteBase.straps.sn = 0 ∧ marked.lnk.markInProgress = true := by decide
theorem witness_HomeSlotSends_handoff :
    (base.modCrw fun c => { c with handoffDue := true }).crw.handoffDue = true ∧
      (base.modCrw fun c => { c with handoffDue := true }).lnk.timer ≤ 320 * base.own.toNat := by decide
theorem witness_HomeSlotSends_clash :
    (after .homeSlotTransmit base).resetHeld = false ∧
      (after .homeSlotTransmit base).lnk.dld.any (fun x => x.home) = true := by decide

/-- A REFRESH waits in the transmit queue. -/
def queued : State := withLnk fun l => { l with txq := [refreshParcel 6 2 0x101] }

theorem witness_OpenSlotSends_attempt :
    queued.resetHeld = false ∧ 16 ≤ (16 : Slot).toNat ∧ queued.lnk.sync = .follow ∧
      queued.straps.sn ≠ 0 ∧ queued.lnk.slotRunning = true ∧ queued.lnk.markInProgress = false ∧
      queued.lnk.timer ≤ 320 * (16 : Slot).toNat ∧ queued.lnk.dld = none ∧
      queued.lnk.begunSlot ≠ some (16 : Slot).toNat ∧
      queued.lnk.txq = refreshParcel 6 2 0x101 :: [] := by decide
/-- An open slot begun already, after a lost arbitration; a queue with nothing in it. -/
theorem witness_OpenSlotSends_withheld :
    let s := after (.openSlotOutcome (some 0)) (after (.openSlotAttempt 16) queued)
    s.resetHeld = false ∧ s.lnk.begunSlot = some (16 : Slot).toNat ∧ base.lnk.txq = [] := by decide
/-- The three outcomes, with a mismatch at the last bit of byte 0 and at the bit after it. -/
theorem witness_OpenSlotSends_outcome :
    (after (.openSlotAttempt 16) queued).resetHeld = false ∧
      (after (.openSlotAttempt 16) queued).lnk.dld =
        some { slot := 16, home := false, parcel := refreshParcel 6 2 0x101 } ∧
      (7 : Byte).toNat < 8 ∧ 8 ≤ (8 : Byte).toNat := by decide

theorem base_hears : base.hears rx true := by unfold State.hears; decide
theorem base_hears_any : base.hears rx false := by unfold State.hears; decide
theorem keyed_hears : keyed.hears rx false := by unfold State.hears; decide

theorem witness_ParcelArrives : base.resetHeld = false ∧ base.lnk.receives 40 = true ∧ base.hears rx false :=
  ⟨rfl, by decide, base_hears_any⟩

/-- The own number as origin, and a COMMAND, a CRAWLTEXT and a REFRESH for station 5. -/
theorem witness_ParcelArrives_discarded :
    rxOf (.release ⟨40, 6, 0⟩ 0) = some ⟨40, 6, 0⟩ ∧ base.lnk.receives 40 = true ∧ (6 : Station) ≠ 0 ∧
      6 = base.own ∧ Instr.checked (.release ⟨40, 2, 5⟩ 0) = some (⟨40, 2, 5⟩, 2, 2) ∧
      base.hears ⟨40, 2, 5⟩ false ∧ (5 : Station) ≠ 0 ∧ 5 ≠ base.own := by
  unfold State.hears
  decide
theorem witness_ParcelArrives_elsewhere (b : CrawlTextBody) :
    ∃ b', Instr.crawltext ⟨40, 2, 5⟩ b = .crawltext ⟨40, 2, 5⟩ b' := ⟨b, rfl⟩

/-! ## Witnesses: peer table -/

/-- Station 2's peer entry. -/
def withPeer (e : Peer) : State := { base with ptb := { base.ptb with peers := [(2, e)] } }

def present (misses : Nat) : Peer := { state := .present, kind := .feed, misses := misses }

theorem witness_HomeSlotReportCounts :
    base.resetHeld = false ∧ base.lnk.sync ≠ .listen ∧ base.lnk.slotRunning = true ∧ (2 : Station) ≠ 0 ∧
      (2 : Station) ≠ base.own ∧ (2 : Station).toNat ∉ base.lnk.heard ∧
      (2 : Station).toNat ∈ (base.modLnk fun l => { l with heard := [2] }).lnk.heard ∧
      (base.peer 2).state = .absent ∧ ((withPeer (present 6)).peer 2).misses < 7 ∧
      ((withPeer (present 7)).peer 2).state = .present ∧ 7 ≤ ((withPeer (present 7)).peer 2).misses ∧
      ((withPeer { state := .silent, kind := .unknown, misses := 8 }).peer 2).state = .silent := by decide

/-- The record's source 2 has missed seven home slots; station 3 is there to take over, or is not. -/
def falling (alternate : PeerState) : State :=
  { keyed with ptb := { keyed.ptb with
      peers := [(2, present 7), (3, { state := alternate, kind := .feed, misses := 0 })] } }

theorem witness_SilenceSwitchesSources :
    (falling .present).resetHeld = false ∧ (falling .present).lnk.sync ≠ .listen ∧
      (falling .present).lnk.slotRunning = true ∧ (2 : Station) ≠ 0 ∧ (2 : Station) ≠ (falling .present).own ∧
      (2 : Station).toNat ∉ (falling .present).lnk.heard ∧ ((falling .present).peer 2).state = .present ∧
      7 ≤ ((falling .present).peer 2).misses ∧ (falling .present).recordsMatch ∧
      (falling .present).record? 0x101 = some rcd ∧ rcd.source = some 2 ∧
      (falling .present).isPresent 3 = true ∧ (falling .absent).isPresent 3 = false :=
  ⟨rfl, by decide, rfl, by decide, by decide, by decide, by decide, by decide,
    recordsMatch_keyed rfl rfl rfl rfl rfl rfl rfl, rfl, rfl, by decide, by decide⟩

/-- Feed 2, PRESENT, reports itself a console: a kind change event with station 3 there to take over. -/
theorem witness_SilenceSwitchesSources_kind :
    let s := { keyed with ptb := { keyed.ptb with peers := [(2, present 0), (3, present 0)] } }
    s.hears rx false ∧ s.recordsMatch ∧ s.sourcesDiffer ∧ (s.peer rx.origin).state = .present ∧
      (s.peer rx.origin).kind ≠ .unknown ∧ (s.peer rx.origin).kind ≠ kindOf 2 ∧
      s.record? 0x101 = some rcd ∧ rcd.source = some rx.origin ∧ rcd.alternate = some 3 ∧
      s.isPresent 3 = true := by
  refine ⟨by unfold State.hears; decide, recordsMatch_keyed rfl rfl rfl rfl rfl rfl rfl, ?_, by decide,
    by decide, by decide, rfl, rfl, rfl, by decide⟩
  intro e he n hn
  have : e = (0x101, rcd) := by simpa [keyed, keyedWith] using he
  subst this
  cases hn
  decide

/-- The record's request stands beside one of another key; the station goes and 3 takes over. -/
theorem witness_SilenceSwitchesSources_requests :
    let s := { keyed with
      ptb := { keyed.ptb with peers := [(2, present 7), (3, present 0)] }
      dir := { keyed.dir with refresh := waitingReqs 1 } }
    s.straps.sn ≠ 0 ∧ (s.record? 0x101).bind Record.source = some 2 ∧
      s.dir.refresh.length + (s.dir.records.filter fun e => e.2.source = some 2).length ≤ 16 ∧
      ((after (.homeSlotReport 2) s).record? 0x101).map Record.state = some .gapped ∧
      (after (.homeSlotReport 2) s).dir.refresh.map (fun e => (e.key, e.target)) =
        [(0x102, 2), (0x101, 3)] := by decide

theorem witness_PresenceAndMarkTaken_kind :
    (withPeer (present 0)).hears rx false ∧ ((withPeer (present 0)).peer rx.origin).state = .present ∧
      ((withPeer (present 0)).peer rx.origin).kind ≠ .unknown ∧
      ((withPeer (present 0)).peer rx.origin).kind ≠ .console := by unfold State.hears; decide
theorem witness_PresenceAndMarkTaken_same :
    base.hears rx false ∧ (base.peer rx.origin).state ≠ .present := by unfold State.hears; decide
theorem witness_PresenceAndMarkTaken_mark : keyed.hears rx false ∧ keyed.recordsMatch :=
  ⟨keyed_hears, keyed_recordsMatch⟩

/-! ## Witnesses: intake and directory -/

/-- No station's entry of the key is open. -/
theorem witness_TickStartsEntry :
    keyed.hears rx false ∧ keyed.recordsMatch ∧ keyed.record? 0x101 = some rcd ∧
      (rcd.source = none ∨ rcd.source = some rx.origin) ∧ openEntry 0x101 keyed.inq = none ∧
      (∀ x, openEntry 0x101 keyed.inq = some x → x.origin ≠ rx.origin) ∧ keyed.inq.length < 64 :=
  ⟨keyed_hears, keyed_recordsMatch, rfl, .inr rfl, rfl, (by intro _ h; cases h), by decide⟩
theorem witness_TickStartsEntry_adopts :
    (keyedWith { rcd with source := none }).hears rx false ∧
      (keyedWith { rcd with source := none }).recordsMatch ∧
      (keyedWith { rcd with source := none }).record? 0x101 = some { rcd with source := none } :=
  ⟨by unfold State.hears; decide, recordsMatch_keyed rfl rfl rfl rfl rfl rfl rfl, rfl⟩
theorem witness_TickStartsEntry_unbound : base.hears rx false ∧ base.record? 0x101 = none :=
  ⟨base_hears_any, rfl⟩

/-- The keyed state with intake entries. -/
def withInq (q : List IntakeEntry) : State := { keyed with inq := q }

theorem witness_TickDroppedWhenFull :
    let s := withInq (List.replicate 64 { entry with isOpen := false })
    s.hears rx false ∧ s.recordsMatch ∧ s.record? 0x101 = some rcd ∧
      (rcd.source = none ∨ rcd.source = some rx.origin) ∧ openEntry 0x101 s.inq = none ∧
      64 ≤ s.inq.length :=
  ⟨by unfold State.hears; decide, recordsMatch_keyed rfl rfl rfl rfl rfl rfl rfl, rfl, .inr rfl,
    by decide, by decide⟩

/-- Station 3's open entry of the key: one of 64, and alone. -/
theorem witness_TickDroppedWhenFull_other :
    let e := { entry with origin := 3 }
    let s := fun n => withInq (e :: List.replicate n { entry with isOpen := false })
    (s 63).hears rx false ∧ (s 63).recordsMatch ∧ openEntry 0x101 (s 63).inq = some e ∧
      (∀ x, openEntry 0x101 (s 63).inq = some x → x.origin ≠ rx.origin) ∧ 64 ≤ (s 63).inq.length :=
  ⟨by unfold State.hears; decide, recordsMatch_keyed rfl rfl rfl rfl rfl rfl rfl, rfl,
    fun _ h => by cases h; decide, by decide⟩
theorem witness_TickStartsEntry_other :
    let e := { entry with origin := 3 }
    let s := fun n => withInq (e :: List.replicate n { entry with isOpen := false })
    openEntry 0x101 (s 62).inq = some e ∧
      (∀ x, openEntry 0x101 (s 62).inq = some x → x.origin ≠ rx.origin) ∧ (s 62).inq.length < 64 :=
  ⟨rfl, fun _ h => by cases h; decide, by decide⟩
/-- A TICK of station 9 for the record whose source is station 2. -/
theorem witness_TickStartsEntry_filtered :
    keyed.hears ⟨40, 9, 0⟩ false ∧ keyed.recordsMatch ∧ keyed.record? 0x101 = some rcd ∧
      rcd.source = some 2 ∧ (2 : Station) ≠ 9 :=
  ⟨by unfold State.hears; decide, keyed_recordsMatch, rfl, rfl, by decide⟩

/-- The sequence classes at their boundary values: 0 and 32768 duplicate, 1 and 32767 merged. -/
theorem witness_TickMerges :
    (withInq [entry]).hears rx false ∧ (withInq [entry]).recordsMatch ∧
      (withInq [entry]).record? 0x101 = some rcd ∧ (rcd.source = none ∨ rcd.source = some rx.origin) ∧
      openEntry 0x101 (withInq [entry]).inq = some entry ∧ entry.origin = rx.origin ∧
      (entry.lastSeq - entry.lastSeq = 0) ∧ 32768 ≤ (entry.lastSeq + 32768 - entry.lastSeq).toNat ∧
      (entry.lastSeq + 1 - entry.lastSeq).toNat = 1 ∧ (entry.lastSeq + 32767 - entry.lastSeq).toNat < 32768 :=
  ⟨by unfold State.hears; decide, recordsMatch_keyed rfl rfl rfl rfl rfl rfl rfl, rfl, .inr rfl, rfl, rfl,
    by decide, by decide, by decide, by decide⟩

theorem inq_buffersSound : (withInq [entry]).buffersSound := by
  unfold State.buffersSound State.withinRooms State.queueOnce State.oneOpenEntry State.canonical
  decide

/-- The keyed state with a record and one entry at the head of the intake queue. -/
def applying (r : Record) (e : IntakeEntry) : State := { keyedWith r with inq := [e] }

theorem applying_meets (r : Record) (e : IntakeEntry) (hk : r.key = 0x101) (hr : r.refs = 1)
    (h0 : r.marks = 0) (he : Tab.rising e.items = true) :
    (applying r e).resetHeld = false ∧ (applying r e).recordsMatch ∧ (applying r e).buffersSound ∧
      (applying r e).inq = e :: [] ∧ (applying r e).pnt.queue.length < 64 ∧
      (applying r e).record? 0x101 = some r := by
  have h0' : ∀ n, 0 ≤ n := Nat.zero_le
  refine ⟨rfl, recordsMatch_keyed rfl rfl rfl rfl hk hr h0, ⟨⟨h0' _, ?_, h0' _, h0' _, h0' _⟩, .nil, ?_, rfl, rfl, ?_⟩,
    rfl, (by decide : 0 < 64), rfl⟩
  · exact (by decide : 1 ≤ intakeRoom)
  · unfold State.oneOpenEntry
    simp only [applying, List.filter_cons, List.filter_nil]
    split <;> simp
  · intro x hx
    have h1 : x = e := List.mem_singleton.1 hx
    rw [h1]
    exact he

/-- An entry whose first sequence number is d after the record's, with and without a gap of its own. -/
def entryAt (d : Seq) (gap : Bool) : IntakeEntry := { entry with firstSeq := 5 + d, lastSeq := 5 + d, gap := gap }

/-- In sequence at 1; a gap at 1 with the entry's own and at 2 and 32,767; and first contact. -/
theorem witness_InSequenceEntryApplies (d : Seq) (gap : Bool) :
    let e := entryAt d gap
    (applying rcd e).recordsMatch ∧ (applying rcd e).buffersSound ∧ (applying rcd e).inq = e :: [] ∧
      rcd.source = some e.origin ∧ e.imageStart = false ∧ rcd.lastSeq = some 5 ∧
      { rcd with lastSeq := none }.lastSeq = none ∧
      (applying { rcd with lastSeq := none } e).recordsMatch ∧
      (applying { rcd with lastSeq := none } e).buffersSound :=
  have h := applying_meets rcd (entryAt d gap) rfl rfl rfl rfl
  have h' := applying_meets { rcd with lastSeq := none } (entryAt d gap) rfl rfl rfl rfl
  ⟨h.2.1, h.2.2.1, rfl, rfl, rfl, rfl, rfl, h'.2.1, h'.2.2.1⟩
theorem witness_InSequenceEntryApplies_classes :
    let class_ := fun (d : Seq) (gap : Bool) => rcd.lastSeq.any fun l =>
      (entryAt d gap).gap || decide ((entryAt d gap).firstSeq ≠ l + 1)
    let taken := fun (d : Seq) => (entryAt d false).firstSeq - 5 ≠ 0 ∧ ((entryAt d false).firstSeq - 5).toNat < 32768
    [class_ 1 false, class_ 1 true, class_ 2 false, class_ 32767 false] = [false, true, true, true] ∧
      taken 1 ∧ taken 2 ∧ taken 32767 := by decide
/-- Duplicates at 0 and at 32,768; entries of station 3 and of a key without a record; no entry. -/
theorem witness_InSequenceEntryApplies_dropped :
    (entryAt 0 false).firstSeq - 5 = 0 ∧ 32768 ≤ ((entryAt 32768 false).firstSeq - 5).toNat ∧
      (applying rcd (entryAt 0 false)).record? 0x101 = some rcd ∧
      rcd.source ≠ some { entry with origin := 3 }.origin ∧
      (applying rcd { entry with key := 0x102 }).record? 0x102 = none ∧ keyed.inq = [] := by decide
/-- An image in progress that has seen ASK, and an entry that ends it. -/
theorem witness_InSequenceEntryApplies_image :
    let r := { rcd with image := some { seen := [1], gapped := false } }
    let e := { entryAt 1 false with imageEnd := true }
    (applying r e).recordsMatch ∧ (applying r e).buffersSound ∧ e.imageEnd = true ∧
      r.image.any (fun i => !i.gapped) = true ∧ imageLost e r.image = [2, 3, 4, 5, 6, 7, 8, 9, 10, 11] :=
  have h := applying_meets { rcd with image := some { seen := [1], gapped := false } }
    { entryAt 1 false with imageEnd := true } rfl rfl rfl rfl
  ⟨h.2.1, h.2.2.1, rfl, rfl, by decide⟩
/-- At 64 fields in the paint queue the entry waits, at 63 it is taken. -/
theorem witness_InSequenceEntryApplies_waits :
    let q := fun n => (List.range n).map fun i => ({ index := i, kind := .ordinary } : PaintReq)
    (base.modPnt fun p => { p with queue := q 64 }).resetHeld = false ∧
      64 ≤ (base.modPnt fun p => { p with queue := q 64 }).pnt.queue.length ∧
      (base.modPnt fun p => { p with queue := q 63 }).pnt.queue.length < 64 := by decide

theorem witness_WholeImageMakesLive :
    let e := { entry with imageStart := true, imageEnd := true, isOpen := false }
    (withInq [e]).resetHeld = false ∧ (withInq [e]).recordsMatch ∧ (withInq [e]).buffersSound ∧
      (withInq [e]).inq = e :: [] ∧ (withInq [e]).pnt.queue.length < 64 ∧
      (withInq [e]).record? e.key = some rcd ∧ rcd.source = some e.origin ∧ e.imageStart = true ∧
      e.imageEnd = true ∧ e.gap = false :=
  ⟨rfl, recordsMatch_keyed rfl rfl rfl rfl rfl rfl rfl,
    by unfold State.buffersSound State.withinRooms State.queueOnce State.oneOpenEntry State.canonical; decide,
    rfl, by decide, rfl, rfl, rfl, rfl, rfl⟩
/-- An entry that begins an image, with and without an end and a gap. -/
theorem witness_WholeImageMakesLive_starts (ends gap : Bool) :
    let e := { entry with imageStart := true, imageEnd := ends, gap := gap, isOpen := false }
    (applying rcd e).recordsMatch ∧ (applying rcd e).buffersSound ∧ (applying rcd e).inq = e :: [] ∧
      rcd.source = some e.origin ∧ e.imageStart = true ∧ e.imageEnd = ends ∧ e.gap = gap :=
  have h := applying_meets rcd
    { entry with imageStart := true, imageEnd := ends, gap := gap, isOpen := false } rfl rfl rfl rfl
  ⟨h.2.1, h.2.2.1, rfl, rfl, rfl, rfl, rfl⟩

/-- A request SENT with its deadline at the present sweep. -/
def asked (second : Bool) : RefreshEntry :=
  { key := 0x101, target := 2, second := second, state := .sent 0, inPass := true }

theorem witness_SweepStartExpiries_stale :
    (keyedWith { rcd with deadline := some 0 }).resetHeld = false ∧
      ((keyedWith { rcd with deadline := some 0 }).record? 0x101).map Record.deadline = some (some 0) ∧
      ((keyedWith { rcd with deadline := some 0 }).lnk.sweep - 0).toNat < 2 ^ 31 := by decide
/-- Behind a request of which the second deadline is reached stand a WAITING one, one of which the first
is reached, one whose deadline is a sweep away, and one that has had its turn. -/
def mixedReqs : List RefreshEntry :=
  [asked true, { asked false with key := 1, state := .waiting }, { asked false with key := 2 },
    { asked false with key := 3, state := .sent 1 }, { asked true with key := 4, inPass := false }]

/-- The mixed requests with q parcels in the transmit queue. -/
def refreshing (q : Nat) : State :=
  { base with
    dir := { base.dir with refresh := mixedReqs }
    lnk := { base.lnk with txq := List.replicate q (refreshParcel 6 2 1) } }

theorem witness_SweepStartExpiries_refresh :
    (refreshing 7).resetHeld = false ∧ mixedReqs.map (refreshing 7).givesUp = [true, false, false, false, false] ∧
      mixedReqs.map (refreshing 7).offers = [false, true, true, false, false] ∧
      (refreshing 7).dir.refresh[2]? = some { asked false with key := 2 } ∧
      (refreshing 7).lnk.txq.length + ((mixedReqs.take 1).filter (refreshing 7).offers).length < 8 ∧
      ¬ (refreshing 7).lnk.txq.length + ((mixedReqs.take 2).filter (refreshing 7).offers).length < 8 := by
  decide

theorem witness_RoundsHalfAway : 0 < 2 := by decide

theorem witness_PricesCompareAndSubtract :
    let items : Tab Stored := [(2, { content := .price 999999999 5, clamped := false }),
      (9, { content := .price 0 0, clamped := false })]
    Tab.look Item.last.code items = some { content := .price 999999999 5, clamped := false } ∧
      Tab.look Item.close.code items = some { content := .price 0 0, clamped := false } ∧
      |(999999999 : Int) * 10 ^ (max 5 0 - 5) - 0 * 10 ^ (max 5 0 - 0)| ≤ 999999999 ∧
      Tab.look Item.bid.code items = none := by decide
theorem witness_PricesCompareAndSubtract_kinds :
    [Content.price 1 0, .percentage 1 0, .size 1, .seconds 1, .code 1].map Content.kindCode = [0, 1, 2, 3, 4] := rfl

/-! ## Witnesses: layout store -/

/-- A FIELD entry that asks for `fld`. -/
def fldEntry : FieldEntry :=
  { page := 3, row := 1, column := 10, width := 7, key := 0x101, item := 0, format := 0, policy := 0,
    param := 2, throttle := 10, fg := 15, bg := 1, justifyRight := true, plus := false, grouping := false,
    subst := 0, blink := false, localMark := false }

def fldRecord (start : BitVec 9) (e : FieldEntry) : FieldRecord :=
  { atPointer := false, start := start, count := 1, first := e, second := e }

theorem allows_base : base.allows rx.origin := by unfold State.allows; decide

/-- The base state's layout names no key. -/
theorem base_recordsMatch : base.recordsMatch := by
  refine ⟨rfl, rfl, rfl, rfl, by simp [base, State.reset, State.released, State.modLnk], fun k => ?_⟩
  have h1 : base.record? k = none := rfl
  have h2 : refCount base.lay k = 0 := rfl
  rw [h1, h2]
  simp

/-- A second field right of the first, at the highest index, with its last column the plane's. -/
theorem witness_FieldRecordBinds :
    let r := fldRecord 511 { fldEntry with column := 79, width := 40 }
    keyed.hears rx true ∧ keyed.allows rx.origin ∧ keyed.recordsMatch ∧ r.atPointer = false ∧ r.count = 1 ∧
      r.first.width ≠ 0 ∧ r.first.column.toNat < cols keyed.straps ∧
      Selector.ofCode r.first.item.toNat = some (.stored .bid) ∧
      readFormat r.first.format r.first.param = some (.dec (some 2)) ∧
      readSubst r.first.subst = some .live ∧
      (∀ j g, Tab.look j keyed.lay.fields = some g → j ≠ r.start.toNat →
        g.page = r.first.page.toNat → g.row = r.first.row.toNat →
        g.column + g.width ≤ r.first.column.toNat ∨
          r.first.column.toNat + min (min r.first.width.toNat 40)
            (cols keyed.straps - r.first.column.toNat) ≤ g.column) ∧
      keyed.dir.records.length < 256 := by
  refine ⟨by unfold State.hears; decide, by unfold State.allows; decide, keyed_recordsMatch, rfl, rfl,
    by decide, by decide, rfl, rfl, rfl, ?_, by decide⟩
  intro j g hg _ _ _
  have e : keyed.lay.fields = [(0, fld)] := rfl
  rw [e] at hg
  simp only [Tab.look] at hg
  split at hg
  · cases hg
    left
    decide
  · cases hg

/-- The same index bound again: the field there is unbound first. -/
theorem witness_FieldRecordBinds_rebinds :
    (fldRecord 0 fldEntry).start.toNat = 0 ∧ (Tab.look 0 keyed.lay.fields).isSome = true ∧
      (fldRecord 0 fldEntry).first.width ≠ 0 := by decide
/-- The continue mode at the highest index. -/
theorem witness_FieldRecordBinds_continues :
    let s := keyed.modLay fun l => { l with pointer := 511 }
    let r := { fldRecord 0 { fldEntry with row := 2 } with atPointer := true }
    s.hears rx true ∧ s.allows rx.origin ∧ s.recordsMatch ∧ s.lay.pointer < 512 ∧
      (if r.atPointer then s.lay.pointer else r.start.toNat) = 511 ∧
      (∀ j g, Tab.look j s.lay.fields = some g → j ≠ 511 → g.page = r.first.page.toNat →
        g.row = r.first.row.toNat → g.column + g.width ≤ r.first.column.toNat ∨
          r.first.column.toNat + min (min r.first.width.toNat 40) (cols s.straps - r.first.column.toNat)
            ≤ g.column) := by
  refine ⟨by unfold State.hears; decide, by unfold State.allows; decide,
    recordsMatch_keyed rfl rfl rfl rfl rfl rfl rfl, by decide, rfl, ?_⟩
  intro j g hg _ _ hr
  have e : (keyed.modLay fun l => { l with pointer := 511 }).lay.fields = [(0, fld)] := rfl
  rw [e] at hg
  simp only [Tab.look] at hg
  split at hg
  · cases hg
    exact absurd hr (by decide)
  · cases hg
/-- The bound index is on a shown page, above the height, and the burst list has room for one. -/
theorem witness_FieldRecordBinds_shown :
    let s := shownIn win0
    s.hears rx true ∧ s.allows rx.origin ∧ s.recordsMatch ∧ Tab.look 0 s.lay.fields = some fld ∧
      s.showing fld.page = some (0, win0) ∧ fld.row < win0.height ∧ s.cpl.bursts.length < 1024 ∧
      Tab.look 1 s.lay.fields = none ∧ (s.showing fldEntry.page.toNat).isSome = true :=
  ⟨by unfold State.hears; decide, by unfold State.allows; decide,
    recordsMatch_keyed rfl rfl rfl rfl rfl rfl rfl, rfl, rfl, by decide, by decide, rfl, rfl⟩
/-- A deletion of the bound index, and of one that holds no field. -/
theorem witness_FieldRecordBinds_deletes :
    let r := fun n => fldRecord n { fldEntry with width := 0 }
    keyed.hears rx true ∧ keyed.allows rx.origin ∧ keyed.recordsMatch ∧ (r 511).start.toNat < 512 ∧
      (r 0).count = 1 ∧ (r 0).first.width = 0 ∧ keyed.dir.records.length ≤ 256 ∧
      (∀ w, (keyed.window w).compose ≠ some (.fields [])) ∧ Tab.look 0 keyed.lay.fields = some fld ∧
      Tab.look 511 keyed.lay.fields = none :=
  ⟨by unfold State.hears; decide, by unfold State.allows; decide, keyed_recordsMatch, by decide, rfl, rfl,
    by decide, fun _ => (by decide : resetWindow.compose ≠ some (.fields [])), rfl, rfl⟩
/-- A binding and a deletion at the two highest indices. -/
theorem witness_FieldRecordBinds_two :
    let r := { fldRecord 510 { fldEntry with row := 2 } with
      count := 2, second := { fldEntry with width := 0 } }
    r.start.toNat + 2 ≤ 512 ∧ r.count = 2 ∧
      readEntry (cols base.straps) r.first = some (.bind { fld with row := 2 }) ∧
      readEntry (cols base.straps) r.second = some .delete ∧
      overlaps base.lay.fields [(510, .bind { fld with row := 2 }), (511, .delete)] = false ∧
      base.dir.records.length < 255 ∧ base.hears rx true ∧ base.allows rx.origin ∧ base.recordsMatch :=
  ⟨by decide, rfl, by decide, rfl, by decide, by decide, base_hears, allows_base, base_recordsMatch⟩
/-- Fields 0 and 1 in columns 0..4 and 6..9 of one row of page 3, which window 0 shows; run 3 covers both
and run 7 the first. -/
def twoBound : State :=
  let run := fun w => ({ page := 3, row := 1, column := 0, glyphs := List.replicate w 0x41, fg := 1, bg := 2,
                         blink := false } : LabelRun)
  { shownIn win0 with
    lay := { defaultLay with
      fields := [(0, { fld with column := 0, width := 5 }), (1, { fld with column := 6, width := 4 })]
      labels := [(3, run 10), (7, run 4)] }
    dir := { records := [(0x101, { rcd with refs := 2 })], refresh := [] } }
theorem witness_FieldRecordBinds_clears :
    let r := { fldRecord 0 { fldEntry with width := 0 } with count := 2 }
    twoBound.hears rx true ∧ twoBound.allows rx.origin ∧ r.start.toNat + 2 ≤ 512 ∧
      readEntry (cols twoBound.straps) r.first = some .delete ∧ twoBound.recordsMatch ∧
      twoBound.dir.records.length < 255 ∧
      (Tab.look 0 twoBound.lay.fields).map Field.page = (Tab.look 1 twoBound.lay.fields).map Field.page ∧
      twoBound.showing 3 = some (0, win0) ∧ fld.row < win0.height ∧ twoBound.cpl.bursts.length + 2 + 2 ≤ 1024 :=
  ⟨by unfold State.hears; decide, by unfold State.allows; decide, by decide, rfl,
    recordsMatch_fields rfl rfl (List.cons_ne_nil _ _) (by decide) rfl rfl rfl rfl rfl rfl, by decide, rfl, rfl,
    by decide, by decide⟩
/-- The bound index is in the compose set of window 0, which waits for another field's paint besides; and
window 0 composes its bursts yet, or shows the page. -/
theorem witness_FieldRecordBinds_composes :
    let v : Window := { win0 with state := .composing, compose := some (.fields [0, 9]) }
    let s := shownIn v
    s.hears rx true ∧ s.allows rx.origin ∧ s.recordsMatch ∧ s.windowsAgree ∧
      (∀ w, (s.window w).compose ≠ some (.fields [])) ∧
      s.showing fldEntry.page.toNat = some (0, v) ∧ fldEntry.row.toNat < v.height ∧
      ((shownIn { v with compose := some .bursts }).window 0).compose = some .bursts ∧
      ((shownIn win0).window 0).state ≠ .composing := by
  refine ⟨by unfold State.hears; decide, by unfold State.allows; decide,
    recordsMatch_keyed rfl rfl rfl rfl rfl rfl rfl, (windowsSound_one rfl (by decide) ?_).1, ?_, rfl, by decide,
    by decide, by decide⟩
  · unfold Window.agrees; decide
  · intro w
    rcases w with _ | w
    · decide
    · exact (by decide : resetWindow.compose ≠ some (.fields []))

def lblRecord (run : BitVec 16) (length : Byte) : LabelRecord :=
  { run := run, page := 3, row := 0, column := 0, length := length, charset := 0, blink := false, fg := 15,
    bg := 1, chars := List.replicate 20 0x41 }

theorem witness_LabelRecordWrites :
    let r := lblRecord 255 20
    base.hears rx true ∧ base.allows rx.origin ∧ r.run.toNat ≤ 255 ∧
      (r.length = 0 ∨ r.charset.toNat ≤ 1 ∧ r.column.toNat < cols base.straps) ∧
      labelChars (Tab.erase r.run.toNat base.lay.labels) +
        min (min r.length.toNat 20) (cols base.straps - r.column.toNat) ≤ 2048 :=
  ⟨base_hears, allows_base, by decide, by decide, by decide⟩
theorem witness_LabelRecordWrites_deletes : (lblRecord 255 0).run.toNat ≤ 255 ∧ (lblRecord 255 0).length = 0 := by
  decide
theorem witness_LabelRecordWrites_hidden (p : Nat) : base.showing p = none := rfl
/-- Window 0 shows page 3, with run 255 on it; the list has room for one burst. -/
theorem witness_LabelRecordWrites_shown :
    let l : LabelRun := { page := 3, row := 9, column := 0, glyphs := [0x41], fg := 1, bg := 2, blink := false }
    let s := (shownIn win0).modLay fun y => { y with labels := [(255, l)] }
    s.hears rx true ∧ s.allows rx.origin ∧ Tab.look 255 s.lay.labels = some l ∧ l.glyphs ≠ [] ∧
      s.showing l.page = some (0, win0) ∧ l.row < win0.height ∧ s.cpl.bursts.length < 1024 ∧
      ((after (.label rx (lblRecord 255 20)) s).lay.labels.map fun e => (e.2.page, e.2.row)) = [(3, 0)] :=
  ⟨by unfold State.hears; decide, by unfold State.allows; decide, rfl, by decide, rfl, by decide, by decide,
    by decide⟩

def winRecord (window top height page : Byte) : WindowRecord :=
  { window := window, top := top, height := height, background := 4, page := page }

/-- A band of rows 12..22, right below window 0 and up to the last of the 23 free rows, with page 31; and
window 0 itself ended, with the burst list empty and full. -/
theorem witness_WindowRecordOpens :
    let s := shownIn win0
    let r := winRecord 7 12 11 31
    s.hears rx true ∧ s.allows rx.origin ∧ s.windowsSound ∧ 7 = r.window.toNat ∧ 7 ≤ 7 ∧
      (r.height ≠ 0 → r.top.toNat + r.height.toNat ≤ freeRows s.straps ∧
        (r.page.toNat ≤ 31 ∨ r.page = 255) ∧
        ∀ w v, (w, v) ∈ s.win → w ≠ 7 →
          r.top.toNat + r.height.toNat ≤ v.top ∨ v.top + v.height ≤ r.top.toNat) ∧
      (∀ w, w ≠ 7 → ¬ s.shows w r.page.toNat) ∧ 0 = (winRecord 0 0 0 0).window.toNat ∧
      0 < (s.window 0).height ∧ (s.window 0).page = some 3 ∧ (s.burstsLeft 0).length = 0 := by
  refine ⟨by unfold State.hears; decide, by unfold State.allows; decide,
    windowsSound_one rfl (by decide) win0_agrees, by decide, by decide, fun _ => ⟨by decide, by decide, ?_⟩, ?_,
    by decide, by decide, by decide, by decide⟩
  · intro w v h _
    have e : (shownIn win0).win = [(0, win0)] := rfl
    rw [e, List.mem_singleton] at h
    cases h
    decide
  · intro w _ h
    by_cases hw : w = 0
    · subst hw
      exact absurd h.2 (by decide)
    · exact not_shows_one (v := win0) rfl hw _ h

/-- A page that window 0 shows, no page, and a height of 0. -/
theorem witness_WindowRecordOpens_empty :
    (shownIn win0).shows 0 (winRecord 7 12 11 3).page.toNat ∧ (winRecord 7 12 11 255).page = 255 ∧
      (winRecord 0 0 0 0).height = 0 := by unfold State.shows; decide

def polRecord (policy mode : Byte) : PolicyRecord :=
  { policy := policy, mode := mode, hold := 1024, upFg := 1, upBg := 2, downFg := 3, downBg := 4, upStick := 5,
    downStick := 6, touchFg := 7, touchBg := 8, touch := true, blinkFlash := true }

theorem witness_SmallTablesWritten :
    base.hears rx true ∧ base.allows rx.origin ∧ (polRecord 7 4).policy.toNat ≤ 7 ∧
      readMode (polRecord 7 4).mode = some .sign ∧ (15 : Byte).toNat ≤ 15 ∧ (7 : Byte).toNat ≤ 7 ∧
      readPageOrNone 31 = some (some 31) ∧ readPageOrNone 255 = some none :=
  ⟨base_hears, allows_base, by decide, rfl, by decide, by decide, rfl, rfl⟩

theorem witness_ProgramAndGlobalWritten :
    base.hears rx true ∧ base.allows rx.origin ∧ base.recordsMatch ∧ (31 : Byte).toNat ≤ 31 ∧
      base.dir.records.length < 256 ∧ base.straps.srow = true :=
  ⟨base_hears, allows_base, base_recordsMatch, by decide, by decide, rfl⟩
theorem witness_ProgramAndGlobalWritten_text :
    (base.modSts fun t => { t with text := [⟨0x41, false⟩] }).sts.text ≠ [] ∧ base.sts.text = [] := by decide

theorem witness_BadCodesRefused : base.hears rx true ∧ base.allows rx.origin := ⟨base_hears, allows_base⟩
/-- Each test of a record or command at its first refused value, which checks its operands alone or a
window that does not exist. -/
theorem witness_BadCodesRefused_each :
    base.Refuses (.label rx (lblRecord 256 1)) .range ∧
      base.Refuses (.label rx { lblRecord 0 1 with charset := 2 }) .range ∧
      base.Refuses (.label rx { lblRecord 0 1 with column := 80 }) .range ∧
      base.Refuses (.window rx (winRecord 8 0 0 0)) .range ∧
      base.Refuses (.window rx (winRecord 7 12 12 255)) .range ∧
      base.Refuses (.window rx (winRecord 7 0 1 32)) .range ∧
      (shownIn win0).Refuses (.window rx (winRecord 7 11 2 255)) .range ∧
      base.Refuses (.policy rx (polRecord 8 0)) .range ∧ base.Refuses (.policy rx (polRecord 0 5)) .range ∧
      base.Refuses (.palette rx ⟨16, 0, 0, 0⟩) .range ∧ base.Refuses (.condlabel rx ⟨16, spaces 6⟩) .range ∧
      base.Refuses (.carousel rx ⟨8, 0, 0, 1⟩) .range ∧ base.Refuses (.carousel rx ⟨0, 16, 0, 1⟩) .range ∧
      base.Refuses (.carousel rx ⟨0, 0, 254, 1⟩) .range ∧
      base.Refuses (.crawlprog rx ⟨32, false, 0, spaces 8⟩) .range ∧
      base.Refuses (.showPage rx 8 0) .range ∧ (shownIn win0).Refuses (.showPage rx 0 32) .range ∧
      (shownIn win0).Refuses (.showPage rx 1 0) .range ∧ base.Refuses (.release rx 8) .range ∧
      base.Refuses (.run rx 0) .range ∧ base.Refuses (.halt rx 8) .range ∧ base.Refuses (.freeze rx 8) .range ∧
      base.Refuses (.thaw rx 8) .range ∧ base.Refuses (.override rx 8 0) .range ∧
      base.Refuses (.override rx 7 3) .range :=
  ⟨.labelRun _ _ (by decide), .labelPlace _ _ (by decide) (by decide), .labelPlace _ _ (by decide) (by decide),
    .windowIndex _ _ (by decide), .windowBand _ _ (by decide) (by decide), .windowBand _ _ (by decide) (by decide),
    .windowBand _ _ (by decide) (by decide), .policy _ _ (by decide), .policy _ _ (by decide),
    .palette _ _ (by decide), .condLabel _ _ (by decide), .carousel _ _ (by decide), .carousel _ _ (by decide),
    .carousel _ _ (by decide), .progEntry _ _ (by decide), .showPage _ _ _ (by decide),
    .showPage _ _ _ (by decide), .showPage _ _ _ (by decide), .release _ _ (by decide), .run _ _ (by decide),
    .halt _ _ (by decide), .freeze _ _ (by decide), .thaw _ _ (by decide), .override _ _ _ (by decide),
    .override _ _ _ (by decide)⟩
/-- A label store that holds 2,029 characters has no room for 20 more. -/
theorem witness_BadCodesRefused_labelRoom :
    let l : LabelRun := { page := 4, row := 0, column := 0, glyphs := List.replicate 2029 0x41, fg := 1, bg := 2,
                          blink := false }
    (base.modLay fun y => { y with labels := [(1, l)] }).Refuses (.label rx (lblRecord 255 20)) .full :=
  .labelRoom _ _ (by decide) (by decide) (by decide) (by decide) (by decide) (by decide +kernel)
/-- Each FIELD test that fails: the entry count, the last index, the column, an overlap and the room. -/
theorem witness_BadCodesRefused_field :
    let r := fldRecord 511 fldEntry
    ({ r with count := 3 }.count ≠ 1 ∧ { r with count := 3 }.count ≠ 2) ∧
      512 < { r with count := 2 }.start.toNat + { r with count := 2 }.count.toNat ∧
      (({ r.first with column := 80 } : FieldEntry).width ≠ 0 ∧
        cols base.straps ≤ ({ r.first with column := 80 } : FieldEntry).column.toNat) ∧
      readEntries (cols keyed.straps) r = some [.bind fld] ∧ 511 + [EntryRead.bind fld].length ≤ 512 ∧
      overlaps keyed.lay.fields (fieldRun 511 [.bind fld]) = true ∧
      overlaps base.lay.fields (fieldRun 511 [.bind fld]) = false := by decide
set_option maxRecDepth 20000 in
/-- 256 keys on page 4 and one more on page 3. -/
theorem witness_BadCodesRefused_full :
    let fields := (List.range 256).map fun i =>
      (i, { fld with page := 4, row := i, key := BitVec.ofNat 24 (2048 + i) })
    overlaps fields (fieldRun 511 [.bind fld]) = false ∧
      256 < (namedKeys { defaultLay with
        fields := (fieldRun 511 [.bind fld]).foldl changeTable fields }).length := by decide +kernel
set_option maxRecDepth 20000 in
/-- 256 keys on page 4 and one more in the crawl program. -/
theorem witness_BadCodesRefused_progRoom :
    let fields := (List.range 256).map fun i =>
      (i, { fld with page := 4, row := i, key := BitVec.ofNat 24 (2048 + i) })
    (base.modLay fun y => { y with fields := fields }).Refuses (.crawlprog rx ⟨31, true, 1, spaces 8⟩) .full :=
  .progRoom _ _ (by decide) (by decide +kernel)

/-- A COMMAND and a LAYOUT record of station 2 on a screen that station 3 holds. -/
theorem witness_ForeignRefused :
    let s := base.claimed 3
    Instr.checked (.showPage rx 0 3) = some (rx, 2, 1) ∧ Instr.checked (.global rx ⟨0, 0, 0, 0, 0, 0, 0, 0, 0, 0, 0, 0, 0, 0, 0⟩)
      = some (rx, 7, 9) ∧ s.hears rx true ∧ s.ptb.origin = some 3 ∧ (3 : Station) ≠ rx.origin :=
  ⟨rfl, rfl, by unfold State.hears; decide, rfl, by decide⟩

/-- On painter 6 the status row is plane row 24; on a painter with SROW 0 there is none. -/
theorem witness_LayoutClearResets :
    base.hears rx true ∧ base.allows rx.origin ∧ some 24 = statusRow base.straps ∧
      some 23 ≠ statusRow base.straps ∧ base.cpl.granted = none :=
  ⟨base_hears, allows_base, rfl, by decide, rfl⟩

/-! ## Witnesses: windows -/

/-- Window 0 SHOWING page 3 with a carousel in some state, at step 0 of a program of pages 5 and 6. -/
def carouselIn (c : CarouselState) (st : WinState) : State :=
  { shownIn { win0 with state := st, carousel := c, step := 0, dwell := 1, dwellDue := true } with
    lay := { keyed.lay with steps := [(0, { page := some 5, dwell := 2 }), (1, { page := some 6, dwell := 3 })] } }

theorem carousel_sound (c : CarouselState) (st : WinState) (h : st = .showing ∨ st = .frozen) :
    (carouselIn c st).windowsSound := by
  refine windowsSound_one rfl ?_ ?_ <;>
    obtain rfl | rfl := h <;> cases c <;> first | decide | (unfold Window.agrees; decide)

/-- A page that no window shows, in the window, whose carousel runs; and the page that it shows. -/
theorem witness_ShowComposes :
    let s := carouselIn .running .showing
    s.hears rx true ∧ s.allows rx.origin ∧ s.windowsSound ∧ (0 : Byte).toNat ≤ 7 ∧ (31 : Byte).toNat ≤ 31 ∧
      0 < (s.window 0).height ∧ (∀ w, w ≠ 0 → ¬ s.shows w 31) ∧ (∀ w, w ≠ 0 → ¬ s.shows w 3) ∧
      (s.window 0).page ≠ some 31 ∧ (s.window 0).page = some 3 ∧ (s.window 0).carousel = .running ∧
      s.cpl.bursts.length < 1024 :=
  ⟨by unfold State.hears; decide, by unfold State.allows; decide, carousel_sound _ _ (.inl rfl), by decide,
    by decide, by decide, fun _ hw => not_shows_one rfl hw _, fun _ hw => not_shows_one rfl hw _, by decide,
    rfl, rfl, by decide⟩
/-- What leaves with page 3 of window 0: a highlight of its field, a painter burst waiting and one granted,
and, where the window composes, its waiting and its granted bursts. -/
theorem witness_ShowComposes_leaves (st : BurstStage) :
    let s := { shownIn { win0 with state := .composing, compose := some .bursts } with
      pnt := { queue := [], states := [(0, { initialPaint with flash := .up })], highlights := [⟨0, 9⟩]
               burst := some { burst .ordinary .flash .up with stage := st } }
      cpl := { resetCpl with
        bursts := [bst]
        granted := some { row := 2, column := 0, cells := [], by_ := .compose (.window 0) (.fieldsPhase 0) } } }
    s.hears rx true ∧ s.windowsSound ∧ (s.window 0).page = some 3 ∧ onPage s.lay.fields 3 0 = true ∧
      listed 0 s.pnt.highlights = true ∧ s.pnt.burst.map PaintBurst.page = some 3 ∧
      (s.window 0).state = .composing ∧ s.burstsLeft 0 = [] ∧
      (s.burstsLeft 0).length + (composeBursts s 0 31).length ≤ 1024 :=
  ⟨base_hears, windowsSound_one (v := { win0 with state := .composing, compose := some .bursts }) rfl (by decide)
      (by unfold Window.agrees; decide),
    rfl, rfl, rfl, rfl, rfl, rfl, (by decide : 0 + 10 ≤ 1024)⟩

/-- Window 7 open and EMPTY beside window 0, which shows page 3. -/
def twoWindows : State :=
  { keyed with win := [(0, win0), (7, { resetWindow with top := 12, height := 4 })] }

theorem twoWindows_sound : twoWindows.windowsSound := by
  refine ⟨⟨by decide, by decide, ?_⟩, ?_⟩
  · intro e he
    have e1 : twoWindows.win = [(0, win0), (7, { resetWindow with top := 12, height := 4 })] := rfl
    rw [e1, List.mem_cons, List.mem_singleton] at he
    obtain rfl | rfl := he
    · exact win0_agrees
    · exact ⟨by decide, by decide, by decide, by decide, by decide, by decide⟩
  · have hp : ∀ w p, twoWindows.shows w p → 0 = w := by
      intro w p hs
      by_contra hne
      by_cases h7 : 7 = w
      · subst h7
        exact absurd hs.1 (by decide)
      · have e1 : twoWindows.win = [(0, win0), (7, { resetWindow with top := 12, height := 4 })] := rfl
        simp only [State.shows, State.window, Tab.get, e1, Tab.look, if_neg hne, if_neg h7] at hs
        exact hs.1 rfl
    intro w₁ w₂ p h₁ h₂
    rw [← hp _ _ h₁, ← hp _ _ h₂]

theorem witness_ShowComposes_busy :
    twoWindows.hears rx true ∧ twoWindows.allows rx.origin ∧ twoWindows.windowsSound ∧
      (7 : Byte).toNat ≤ 7 ∧ (3 : Byte).toNat ≤ 31 ∧ 0 < (twoWindows.window 7).height ∧ 0 ≠ 7 ∧
      twoWindows.shows 0 3 :=
  ⟨by unfold State.hears; decide, by unfold State.allows; decide, twoWindows_sound, by decide, by decide,
    by decide, by decide, by unfold State.shows; decide⟩
/-- Window 7 is EMPTY and the burst list full. -/
theorem witness_ShowComposes_full :
    let s := twoWindows.modCpl fun c => { c with bursts := List.replicate 1024 (rowBurst .rowClear .layout 0 0 resetCell) }
    s.windowsSound ∧ (s.window 7).page = none ∧ 0 < (composeBursts s 7 31).length ∧
      1024 < 1024 + (composeBursts s 7 31).length := ⟨twoWindows_sound, rfl, by decide, by decide⟩

theorem witness_CarouselStartsAndResumes_release :
    let s := carouselIn .pinned .showing
    s.hears rx true ∧ s.allows rx.origin ∧ s.windowsSound ∧ 0 = (0 : Byte).toNat ∧ 0 ≤ 7 ∧
      (s.window 0).carousel = .pinned ∧ (s.window 0).step < s.programLength 0 ∧ (s.window 0).dwell ≠ 0 ∧
      (s.stepAt 0 (s.window 0).step).page = some 5 ∧ (∀ w, w ≠ 0 → ¬ s.shows w 5) ∧
      (s.window 0).page ≠ some 5 :=
  ⟨by unfold State.hears; decide, by unfold State.allows; decide, carousel_sound _ _ (.inl rfl), by decide,
    by decide, rfl, by decide, by decide, rfl, fun _ hw => not_shows_one rfl hw _, by decide⟩
/-- A PINNED carousel of window 0, SHOWING or FROZEN, beside window 7, which shows page 5. -/
def pinnedBeside (st : WinState) (step dwell : Nat) (program : List Nat) : State :=
  { keyed with
    lay := { keyed.lay with steps := program.mapIdx fun i p => (i, { page := some p, dwell := 2 }) }
    win := [(0, { win0 with state := st, carousel := .pinned, step := step, dwell := dwell }),
      (7, { resetWindow with top := 12, height := 4, state := .showing, page := some 5 })] }
theorem pinnedBeside_sound (st : WinState) (step dwell : Nat) (program : List Nat)
    (h : st = .showing ∨ st = .frozen) : (pinnedBeside st step dwell program).windowsSound := by
  refine ⟨⟨by simp [pinnedBeside, Tab.wf, Tab.rising, resetWindow, win0], by simp [pinnedBeside], ?_⟩, ?_⟩
  · intro e he
    simp only [pinnedBeside, List.mem_cons, List.not_mem_nil, or_false] at he
    obtain rfl | rfl := he <;> obtain rfl | rfl := h <;> simp [Window.agrees, win0, resetWindow]
  · have hp : ∀ {w p}, (pinnedBeside st step dwell program).shows w p → w = 0 ∧ p = 3 ∨ w = 7 ∧ p = 5 := by
      intro w p hs
      simp only [State.shows, State.window, Tab.get, pinnedBeside, Tab.look] at hs
      split at hs
      · exact .inl ⟨by omega, Option.some.inj hs.2.symm⟩
      · split at hs
        · exact .inr ⟨by omega, Option.some.inj hs.2.symm⟩
        · exact absurd rfl hs.1
    intro w₁ w₂ p h₁ h₂
    obtain ⟨h, h'⟩ | ⟨h, h'⟩ := hp h₁ <;> obtain ⟨k, k'⟩ | ⟨k, k'⟩ := hp h₂ <;> omega
/-- No steps; a step past the program's end and a dwell of 0; a page that window 7 shows; not PINNED. -/
theorem witness_CarouselStartsAndResumes_others (st : WinState) (h : st = .showing ∨ st = .frozen) :
    (pinnedBeside st 0 1 []).windowsSound ∧ (pinnedBeside st 0 1 []).programLength 0 = 0 ∧
      (pinnedBeside st 2 1 [6, 3]).windowsSound ∧ (pinnedBeside st 2 1 [6, 3]).programLength 0 = 2 ∧
      ((pinnedBeside st 2 1 [6, 3]).window 0).step = 2 ∧ ((pinnedBeside st 0 0 [6, 3]).window 0).dwell = 0 ∧
      (pinnedBeside st 0 1 [5, 3]).windowsSound ∧ ((pinnedBeside st 0 1 [5, 3]).stepAt 0 0).page = some 5 ∧
      (pinnedBeside st 0 1 [5, 3]).shows 7 5 ∧ ((pinnedBeside st 0 1 [5, 3]).window 0).carousel = .pinned ∧
      ((pinnedBeside st 0 1 [5, 3]).window 0).state = st ∧ ((shownIn win0).window 0).carousel ≠ .pinned :=
  ⟨pinnedBeside_sound _ _ _ _ h, rfl, pinnedBeside_sound _ _ _ _ h, rfl, rfl, rfl,
    pinnedBeside_sound _ _ _ _ h, rfl, ⟨(by decide : WinState.showing ≠ .empty), rfl⟩, rfl, rfl, by decide⟩
theorem witness_CarouselStartsAndResumes_run :
    let s := carouselIn .stopped .showing
    s.hears rx true ∧ s.allows rx.origin ∧ s.windowsSound ∧ 0 = (0 : Byte).toNat ∧ 0 ≤ 7 ∧
      0 < (s.window 0).height ∧ (s.window 0).carousel = .stopped ∧ 0 < s.programLength 0 ∧
      (s.stepAt 0 0).page = some 5 ∧ (∀ w, w ≠ 0 → ¬ s.shows w 5) ∧ (shownIn win0).programLength 0 = 0 ∧
      ((carouselIn .running .showing).window 0).carousel ≠ .stopped :=
  ⟨by unfold State.hears; decide, by unfold State.allows; decide, carousel_sound _ _ (.inl rfl), by decide,
    by decide, by decide, rfl, by decide, rfl, fun _ hw => not_shows_one rfl hw _, by decide, by decide⟩

theorem witness_HaltStops :
    base.hears rx true ∧ base.allows rx.origin ∧ (7 : Byte).toNat ≤ 7 ∧ 7 < (8 : Byte).toNat :=
  ⟨base_hears, allows_base, by decide, by decide⟩

/-- FREEZE and THAW meet each state of a window. -/
theorem witness_FreezeByState :
    let s := fun st => shownIn { win0 with state := st }
    (s .showing).hears rx true ∧ (s .showing).allows rx.origin ∧ ((s .showing).window 0).state = .showing ∧
      ((s .composing).window 0).state = .composing ∧ ((s .frozen).window 0).state = .frozen ∧
      ((s .showing).window 7).state = .empty ∧ 7 < (8 : Byte).toNat :=
  ⟨by unfold State.hears; decide, by unfold State.allows; decide, rfl, rfl, rfl, rfl, by decide⟩

theorem frozen_agrees (dirty due : Bool) :
    { win0 with state := .frozen, dirty := dirty, advanceDue := due }.agrees := by
  unfold Window.agrees
  cases dirty <;> cases due <;> decide
/-- A FROZEN window, CLEAN and DIRTY, with and without an advance due. -/
theorem witness_ThawByState (dirty due : Bool) :
    let s := shownIn { win0 with state := .frozen, dirty := dirty, advanceDue := due }
    s.hears rx true ∧ s.allows rx.origin ∧ s.windowsSound ∧ 0 = (0 : Byte).toNat ∧ 0 ≤ 7 ∧
      (s.window 0).state = .frozen ∧ (s.window 0).dirty = dirty ∧ (s.window 0).advanceDue = due ∧
      s.visible 0 = [0] :=
  ⟨base_hears, .inl rfl,
    windowsSound_one rfl (by cases dirty <;> cases due <;> decide) (frozen_agrees dirty due), by decide, by decide,
    rfl, rfl, rfl, rfl⟩
theorem witness_ThawByState_others :
    ((shownIn { win0 with state := .composing }).window 0).state = .composing ∧
      ((shownIn { win0 with state := .composing }).window 0).advanceDue = false ∧
      ((shownIn win0).window 0).state = .showing ∧ ((shownIn win0).window 7).state = .empty ∧
      (7 : Byte).toNat ≤ 7 := by decide

theorem witness_OverrideRepaints :
    (shownIn win0).hears rx true ∧ (shownIn win0).allows rx.origin ∧ (7 : Byte).toNat ≤ 7 ∧
      (2 : Byte).toNat ≤ 2 ∧ 2 < (3 : Byte).toNat ∧ ((shownIn win0).window 0).state ≠ .empty ∧
      ((shownIn win0).window 7).state = .empty ∧ (shownIn win0).visible 0 = [0] :=
  ⟨by unfold State.hears; decide, by unfold State.allows; decide, by decide, by decide, by decide, by decide,
    rfl, rfl⟩

theorem witness_DwellExpires_frozen :
    let s := carouselIn .running .frozen
    s.resetHeld = false ∧ s.windowsSound ∧ (s.window (0 : BitVec 3).toNat).carousel = .running ∧
      (s.window (0 : BitVec 3).toNat).dwell = 1 ∧ (s.window (0 : BitVec 3).toNat).dwellDue = true ∧
      (s.window (0 : BitVec 3).toNat).advanceDue = false ∧ (s.window (0 : BitVec 3).toNat).state ≠ .composing ∧
      (s.window (0 : BitVec 3).toNat).state = .frozen :=
  ⟨rfl, carousel_sound _ _ (.inr rfl), rfl, rfl, rfl, rfl, by decide, rfl⟩
theorem witness_DwellExpires_advances :
    let s := carouselIn .running .showing
    s.resetHeld = false ∧ s.windowsSound ∧ (s.window 0).carousel = .running ∧ (s.window 0).dwell = 1 ∧
      (s.window 0).dwellDue = true ∧ (s.window 0).advanceDue = false ∧ (s.window 0).state = .showing ∧
      (s.window 0).step + 1 < s.programLength 0 ∧ (s.stepAt 0 ((s.window 0).step + 1)).page = some 6 ∧
      (∀ w, w ≠ 0 → ¬ s.shows w 6) :=
  ⟨rfl, carousel_sound _ _ (.inl rfl), rfl, rfl, rfl, rfl, rfl, by decide, rfl,
    fun _ hw => not_shows_one rfl hw _⟩
theorem witness_DwellExpires_stops :
    let v := { win0 with carousel := .running, dwell := 1, dwellDue := true }
    (shownIn v).programLength 0 = 0 ∧ ((shownIn v).window 0).state ≠ .frozen ∧ (shownIn v).windowsSound :=
  ⟨by decide, by decide, windowsSound_one rfl (by decide)
    ⟨by decide, by decide, by decide, by decide, by decide, by decide⟩⟩
/-- Window 0 runs its program of pages beside window 7, which shows page 5. -/
def besideFive (step : Nat) (program : List Nat) (due : Bool := true) : State :=
  { keyed with
    lay := { keyed.lay with
      steps := program.mapIdx fun i p => (i, { page := some p, dwell := 2 }) }
    win := [(0, { win0 with carousel := .running, step := step, dwell := if due then 1 else 0, dwellDue := due }),
      (7, { resetWindow with top := 12, height := 4, state := .showing, page := some 5 })] }

theorem besideFive_shows {step : Nat} {program : List Nat} {due : Bool} {w p : Nat} :
    (besideFive step program due).shows w p → w = 0 ∧ p = 3 ∨ w = 7 ∧ p = 5 := by
  intro hs
  simp only [State.shows, State.window, Tab.get, besideFive, Tab.look] at hs
  split at hs
  · exact .inl ⟨by omega, Option.some.inj hs.2.symm⟩
  · split at hs
    · exact .inr ⟨by omega, Option.some.inj hs.2.symm⟩
    · exact absurd rfl hs.1

theorem besideFive_sound (step : Nat) (program : List Nat) : (besideFive step program).windowsSound := by
  refine ⟨⟨by simp [besideFive, Tab.wf, Tab.rising, resetWindow, win0], by simp [besideFive], ?_⟩, ?_⟩
  · intro e he
    simp only [besideFive, List.mem_cons, List.not_mem_nil, or_false] at he
    obtain rfl | rfl := he <;> simp [Window.agrees, win0, resetWindow]
  · intro w₁ w₂ p h₁ h₂
    obtain ⟨h, h'⟩ | ⟨h, h'⟩ := besideFive_shows h₁ <;> obtain ⟨k, k'⟩ | ⟨k, k'⟩ := besideFive_shows h₂ <;>
      omega

/-- From the last step the first one is examined, which another window's page makes it skip; the step
after it shows the window's own page. -/
theorem witness_DwellExpires_wraps :
    let s := besideFive 1 [5, 3]
    s.resetHeld = false ∧ s.windowsSound ∧ (s.window 0).carousel = .running ∧ (s.window 0).dwell = 1 ∧
      (s.window 0).dwellDue = true ∧ (s.window 0).advanceDue = false ∧ (s.window 0).state = .showing ∧
      s.programLength 0 = 2 ∧ ¬ (s.window 0).step + 1 < s.programLength 0 ∧
      (s.stepAt 0 0).page = some 5 ∧ s.shows 7 5 ∧ (s.stepAt 0 1).page = some 3 ∧
      (∀ x, x ≠ 0 → ¬ s.shows x 3) ∧ (s.window 0).page = some 3 ∧
      (s.modWindow 0 fun v => { v with dwell := 0, dwellDue := false }) = besideFive 1 [5, 3] false ∧
      (besideFive 1 [5, 3] false).shows 7 5 ∧ (∀ x, x ≠ 0 → ¬ (besideFive 1 [5, 3] false).shows x 3) :=
  ⟨rfl, besideFive_sound _ _, rfl, rfl, rfl, rfl, rfl, by decide, by decide, rfl,
    by unfold State.shows; decide, rfl,
    fun x hx hs => by obtain ⟨h, _⟩ | ⟨_, h⟩ := besideFive_shows hs <;> omega, rfl, rfl,
    by unfold State.shows; decide,
    fun x hx hs => by obtain ⟨h, _⟩ | ⟨_, h⟩ := besideFive_shows hs <;> omega⟩
/-- Every step's page is shown in window 7. -/
theorem witness_DwellExpires_skipsAll :
    let s := besideFive 0 [5, 5]
    s.windowsSound ∧ (s.window 0).carousel = .running ∧ (s.window 0).dwell = 1 ∧
      0 < s.programLength 0 ∧
      (∀ m, m < s.programLength 0 → ∃ p x, (s.stepAt 0 m).page = some p ∧ x ≠ 0 ∧ s.shows x p) := by
  refine ⟨besideFive_sound _ _, rfl, rfl, by decide, fun m hm => ⟨5, 7, ?_, by decide, ?_⟩⟩
  · have : m < 2 := hm
    interval_cases m <;> rfl
  · unfold State.shows
    decide

/-! ## Witnesses: painter -/

/-- A paint request for the field waits, in window 0. -/
def wanting (kind : PaintKind) (v : Window) (p : PaintState) : State :=
  { shownIn v with pnt := { queue := [{ index := 0, kind := kind }], states := [(0, p)], highlights := [], burst := none } }

/-- The field was painted at sweep 0; the present sweep is n. -/
def paintedAt0 : PaintState := { initialPaint with lastPaint := some 0, textKind := .value }

theorem witness_PaintServiceMakesBurst :
    let s := (wanting .ordinary win0 paintedAt0).modLnk fun l => { l with sweep := 10 }
    s.resetHeld = false ∧ s.pnt.burst = none ∧ s.pnt.queue = { index := 0, kind := .ordinary } :: [] ∧
      Tab.look 0 s.lay.fields = some fld ∧ s.showing fld.page = some (0, win0) ∧ fld.row < win0.height ∧
      win0.state ≠ .frozen ∧ (s.paintState 0).lastPaint = some 0 ∧ fld.throttle ≤ (s.lnk.sweep - 0).toNat := by
  decide
/-- The overrides and substitutions that the statement names, and the width at which a field index no
longer fits. -/
theorem witness_PaintServiceMakesBurst_replaced :
    ({ win0 with override := .dash } : Window).override = .dash ∧ win0.override = .none ∧
      ({ win0 with override := .test } : Window).override = .test ∧
      ({ fld with subst := .blank } : Field).subst = .blank ∧
      ({ fld with subst := .dash } : Field).subst = .dash ∧ (decimal 511).length ≤ 3 ∧
      ¬ (decimal 511).length ≤ 2 := by decide
/-- A condition with a label, one whose label is blank, and none. -/
theorem witness_PaintServiceMakesBurst_condition :
    let items := fun c => ([(11, { content := .code c, clamped := false })] : Tab Stored)
    let labels : Tab Text := [(3, chars "HALTED".toList)]
    takesCondition fld.selector = true ∧ takesCondition (.stored .last) = false ∧
      storedValue (items 3) .condition = .present (.code 3) ∧ 3 ≠ 0 ∧
      isBlank (condLabel labels 3) = false ∧ isBlank (condLabel labels 4) = true ∧
      storedValue (items 4) .condition = .present (.code 4) ∧ storedValue [] .condition = .absent := by
  decide

/-- An index without a field, a page that is not shown, and a row that is the window's height. -/
theorem witness_PaintServiceHoldsBack_skipped :
    let s := fun i v => { shownIn v with
      pnt := { queue := [{ index := i, kind := .initial }], states := [], highlights := [], burst := none } }
    let low := { win0 with height := 1 }
    (s 511 win0).resetHeld = false ∧ (s 511 win0).windowsAgree ∧ Tab.look 511 (s 511 win0).lay.fields = none ∧
      (s 0 { win0 with page := some 4 }).windowsAgree ∧
      (s 0 { win0 with page := some 4 }).showing fld.page = none ∧
      (s 0 low).windowsAgree ∧ (s 0 low).showing fld.page = some (0, low) ∧ low.height ≤ fld.row :=
  ⟨rfl, (windowsSound_one (v := win0) rfl (by decide) win0_agrees).1, rfl,
    (windowsSound_one (v := { win0 with page := some 4 }) rfl (by decide) (by unfold Window.agrees; decide)).1, rfl,
    (windowsSound_one (v := { win0 with height := 1 }) rfl (by decide) (by unfold Window.agrees; decide)).1, rfl,
    by decide⟩
/-- A composing window whose set holds the index reported, alone and with another. -/
theorem witness_PaintServiceHoldsBack_reported (set : NatSet) :
    let s := shownIn { win0 with state := .composing, compose := some (.fields set) }
    s.windowsAgree ∧ (s.window 0).compose = some (.fields set) ∧ (∀ j ∈ [0], j = 0) ∧ ¬ ∀ j ∈ [0, 5], j = 0 :=
  ⟨(windowsSound_one (v := { win0 with state := .composing, compose := some (.fields set) }) rfl
    (by simp [win0, resetWindow]) (by simp [Window.agrees, win0, resetWindow])).1, rfl, by decide, by decide⟩
theorem witness_PaintServiceHoldsBack_waits :
    (base.modPnt fun p => { p with burst := some (burst .ordinary .flash .up) }).pnt.burst ≠ none ∧
      base.pnt.queue = [] := by decide
theorem witness_PaintServiceHoldsBack_frozen :
    let v := { win0 with state := .frozen }
    let s := wanting .ordinary v initialPaint
    s.resetHeld = false ∧ s.windowsAgree ∧ s.pnt.burst = none ∧
      s.pnt.queue = { index := 0, kind := .ordinary } :: [] ∧
      (wanting .initial v initialPaint).pnt.queue = { index := 0, kind := .initial } :: [] ∧
      Tab.look 0 s.lay.fields = some fld ∧ s.showing fld.page = some (0, v) ∧ fld.row < v.height ∧
      v.state = .frozen :=
  ⟨rfl, (windowsSound_one (v := { win0 with state := .frozen }) rfl (by decide)
    (by unfold Window.agrees; decide)).1, rfl, rfl, by decide, rfl, rfl, by decide, rfl⟩
/-- One sweep before the throttle of 10 has run out. -/
theorem witness_PaintServiceHoldsBack_throttled :
    let s := (wanting .ordinary win0 paintedAt0).modLnk fun l => { l with sweep := 9 }
    s.resetHeld = false ∧ s.pnt.burst = none ∧ s.pnt.queue = { index := 0, kind := .ordinary } :: [] ∧
      Tab.look 0 s.lay.fields = some fld ∧ s.showing fld.page = some (0, win0) ∧ fld.row < win0.height ∧
      win0.state ≠ .frozen ∧ (s.paintState 0).lastPaint = some 0 ∧ (s.lnk.sweep - 0).toNat < fld.throttle := by
  decide

/-- The shown state with a written burst. -/
def writtenWith (b : PaintBurst) : State := (shownIn win0).modPnt fun p => { p with burst := some b }

theorem witness_StickyAndSignCommit :
    let s := writtenWith (burst .ordinary .sticky .up)
    s.resetHeld = false ∧ s.pnt.burst = some (burst .ordinary .sticky .up) ∧
      (burst .ordinary .sticky .up).stage = .written ∧ (burst .ordinary .sticky .up).unbound = false ∧
      (burst .ordinary .sticky .up).kind = .ordinary ∧ (burst .ordinary .sticky .up).textKind = .value ∧
      sign (burst .ordinary .sign .none).value = .positive := by decide

theorem witness_CommitPaints :
    let b := burst .ordinary .flash .up
    let s := writtenWith b
    s.resetHeld = false ∧ s.pnt.burst = some b ∧ b.stage = .written ∧ b.unbound = false ∧ s.flashesListed ∧
      b.mode = .flash ∧ 0 < b.hold ∧ b.released = false ∧ (paintSite s b.index).isSome = true ∧
      (b.dir = .up ∨ b.dir = .down) :=
  ⟨rfl, rfl, rfl, rfl, flashesListed_none rfl rfl, rfl, by decide, rfl, by decide, .inl rfl⟩
/-- Each kind of commit of a burst that finds no flash running, under each policy mode (NONE too). -/
theorem witness_CommitPaints_each (kind : PaintKind) (mode : PolicyMode) (d : Direction) (hold : Nat)
    (text : TextKind) (touch : Bool) :
    let b := { burst kind mode d with hold := hold, textKind := text, touch := touch }
    let s := writtenWith b
    s.resetHeld = false ∧ s.pnt.burst = some b ∧ b.stage = .written ∧ b.unbound = false ∧
      s.flashesListed ∧ b.kind = kind ∧ b.mode = mode ∧ b.dir = d ∧ b.hold = hold ∧ b.textKind = text ∧
      b.touch = touch ∧ b.released = false ∧ (paintSite s b.index).isSome = true :=
  ⟨rfl, rfl, rfl, rfl, flashesListed_none rfl rfl, rfl, rfl, rfl, rfl, rfl, rfl, rfl, rfl⟩
/-- An ordinary commit under NONE finds a flash running and a stick set, which it leaves. -/
theorem witness_CommitPaints_modeNone :
    let b := burst .ordinary .none .up
    let p := { initialPaint with flash := .up, stick := .down }
    let s := (writtenWith b).modPnt fun q => { q with states := [(0, p)], highlights := [⟨0, 5⟩] }
    s.resetHeld = false ∧ s.pnt.burst = some b ∧ b.stage = .written ∧ b.unbound = false ∧ s.flashesListed ∧
      b.kind = .ordinary ∧ b.mode = .none ∧ b.textKind = .value ∧ s.paintState b.index = p :=
  ⟨rfl, rfl, rfl, rfl, flashesListed_one (p := { initialPaint with flash := .up, stick := .down }) rfl rfl
    (by decide), rfl, rfl, rfl, rfl⟩
/-- A commit whose page has been released, one whose page no window shows, one of an index unbound. -/
theorem witness_CommitPaints_released :
    let b := { burst .ordinary .flash .up with released := true }
    (writtenWith b).pnt.burst = some b ∧ b.released = true ∧ (writtenWith b).flashesListed ∧
      paintSite ((keyed.modPnt fun p => { p with burst := some b })) 0 = none ∧
      { b with unbound := true }.unbound = true :=
  ⟨rfl, rfl, flashesListed_none rfl rfl, rfl, rfl⟩
/-- An INITIAL commit in a composing window. -/
theorem witness_CommitPaints_initial :
    let v := { win0 with state := .composing, compose := some (.fields [0]), freezeReq := true }
    let s := (shownIn v).modPnt fun p => { p with burst := some (burst .initial .flash .none) }
    s.windowsAgree ∧ s.flashesListed ∧ (s.window 0).compose = some (.fields [0]) ∧
      ((after .paintCommit s).window 0).state = .frozen :=
  ⟨(windowsSound_one (v := { win0 with state := .composing, compose := some (.fields [0]), freezeReq := true })
    rfl (by decide) (by unfold Window.agrees; decide)).1, flashesListed_none rfl rfl, rfl, by decide⟩

theorem witness_DuePaintsAndHighlights_pending :
    let s := keyed.modPnt fun p => { p with states := [(0, { initialPaint with pending := some 0 })] }
    s.resetHeld = false ∧ s.canonical ∧ (s.paintState 0).pending = some 0 ∧ (s.lnk.sweep - 0).toNat < 2 ^ 31 :=
  ⟨rfl, by unfold State.canonical; decide, rfl, by decide⟩
/-- An entry due now expires; one due at the next sweep does not. -/
theorem witness_DuePaintsAndHighlights_highlight :
    let s := fun due => keyed.modPnt fun p =>
      { p with states := [(0, { initialPaint with flash := .up })], highlights := [⟨0, due⟩] }
    (s 0).resetHeld = false ∧ (s 0).flashesListed ∧ ((s 0).lnk.sweep - 0).toNat < 2 ^ 31 ∧
      (s 1).flashesListed ∧ ¬ ((s 1).lnk.sweep - 1).toNat < 2 ^ 31 :=
  ⟨rfl, flashesListed_one (p := { initialPaint with flash := .up }) rfl rfl (by decide), by decide,
    flashesListed_one (p := { initialPaint with flash := .up }) rfl rfl (by decide), by decide⟩

/-! ## Witnesses: cell plane and display -/

/-- Both bursts wait, with the turn as given. -/
def contended (turn : Turn) : State :=
  { (shownIn win0).modPnt (fun p => { p with burst := some { burst .ordinary .flash .up with stage := .waiting } }) with
    cpl := { resetCpl with bursts := [bst], turn := turn } }

theorem witness_PortGrantsInOrder :
    (contended .painter).resetHeld = false ∧ (contended .painter).cpl.granted = none ∧
      (contended .painter).cpl.fetchReq = none ∧ (contended .painter).cpl.crawlReq = false ∧
      (contended .painter).pnt.burst = some { burst .ordinary .flash .up with stage := .waiting } ∧
      (contended .painter).cpl.turn = .painter ∧ (contended .compose).cpl.turn = .compose ∧
      (contended .compose).cpl.bursts = bst :: [] := by decide
theorem witness_PortGrantsInOrder_rows :
    (base.modCpl fun c => { c with fetchReq := some 0 }).cpl.fetchReq = some 0 ∧
      (base.modCpl fun c => { c with crawlReq := true }).cpl.crawlReq = true ∧ crawlRow base.straps = some 23 ∧
      (base.modCpl fun c => { c with statusReq := true }).cpl.statusReq = true ∧
      statusRow base.straps = some 24 := by decide

/-- A granted write of one cell at the last column of its row. -/
def granted (by_ : Requester) (column : Nat) : State :=
  base.modCpl fun c => { c with granted := some { row := 2, column := column, cells := [blankCell 4], by_ := by_ } }

theorem witness_TransferWritesItsCells :
    let w : Write := { row := 2, column := 255, cells := [blankCell 4], by_ := .painter }
    (granted .painter 255).resetHeld = false ∧ (granted .painter 255).cpl.granted = some w ∧
      w.column + w.cells.length ≤ 256 ∧ Tab.wf resetCell (granted .painter 255).cpl.plane = true := by decide
theorem witness_TransferWritesItsCells_each (b : Requester) : (granted b 255).resetHeld = false ∧
    (granted b 255).cpl.granted = some { row := 2, column := 255, cells := [blankCell 4], by_ := b } := ⟨rfl, rfl⟩

/-- The last write of a compose in window 0. -/
def lastWrite : Write := { row := 2, column := 0, cells := [], by_ := .compose (.window 0) (.fieldsPhase 0) }

/-- The last compose burst of window 0 is granted; its page has a visible field, or none. -/
def lastBurst (fields : Tab Field) : State :=
  { keyed with
    lay := { defaultLay with fields := fields }
    win := [(0, { win0 with state := .composing, compose := some .bursts })]
    cpl := { resetCpl with granted := some lastWrite } }

theorem witness_LastBurstStartsFields :
    (lastBurst [(0, fld)]).resetHeld = false ∧
      (lastBurst [(0, fld)]).cpl.granted =
        some { row := 2, column := 0, cells := [], by_ := .compose (.window 0) (.fieldsPhase 0) } ∧
      ((lastBurst [(0, fld)]).window 0).page = some 3 ∧
      ((lastBurst [(0, fld)]).window 0).compose = some .bursts ∧
      visibleFields (lastBurst [(0, fld)]).lay.fields 3 10 ≠ [] ∧
      visibleFields (lastBurst []).lay.fields 3 10 = [] := by decide
/-- The last bursts of a FIELD record and of a LABEL record over the last column of the field. -/
theorem witness_LastBurstStartsFields_layout :
    let s := fun a => { shownIn win0 with
      cpl := { resetCpl with granted := some { row := 3, column := 10, cells := [], by_ := .compose .layout a } } }
    let r : Region := { page := 3, row := 1, column := 16, length := 1 }
    (s (.initial [0])).resetHeld = false ∧ (s (.repaint [r])).cpl.granted.isSome = true ∧
      Tab.look 0 (s (.repaint [r])).lay.fields = some fld ∧ fld.page = r.page ∧ fld.row = r.row ∧
      fld.column < r.column + r.length ∧ r.column < fld.column + fld.width ∧
      (s (.repaint [r])).showing r.page = some (0, win0) ∧ r.row < win0.height := by decide

theorem witness_FrameLatchesBlink : base.resetHeld = false := rfl

theorem witness_RowFetchResolves :
    let s := fun n => base.modCpl fun c => { c with nextRow := n }
    (s 24).resetHeld = false ∧ (s 24).cpl.nextRow < rows (s 24).straps ∧
      ¬ (s 25).cpl.nextRow < rows (s 25).straps ∧
      ((granted .painter 0).modCpl fun c => { c with nextRow := 2 }).cpl.granted.any
        (fun w => w.row = 2) = true := by decide
theorem witness_RowFetchResolves_field :
    let p := { initialPaint with flash := .up, textKind := .value }
    let s := keyed.modPnt fun q => { q with states := [(0, p)] }
    Tab.look 0 s.lay.fields = some fld ∧ s.record? fld.key = some rcd ∧ s.cpl.blinkOn = true ∧
      (s.paintState 0).textKind = .value ∧ rcd.state = .live ∧ (s.paintState 0).flash = .up ∧
      fld.localMark = false ∧ rcd.marks = 0 := by decide
/-- Each source of a field cell's colours, both phases, and a cell of no field and of an unbound one. -/
theorem witness_RowFetchResolves_each (p : PaintState) (st : RecordState) (marks : Nat) (on : Bool) :
    let r := { rcd with state := st, marks := marks }
    let s := { (keyedWith r).modPnt (fun q => { q with states := [(0, p)] }) with
      cpl := { resetCpl with blinkOn := on } }
    Tab.look 0 s.lay.fields = some fld ∧ s.record? fld.key = some r ∧ s.paintState 0 = p ∧
      r.state = st ∧ r.marks = marks ∧ s.cpl.blinkOn = on := ⟨rfl, rfl, rfl, rfl, rfl, rfl⟩
theorem witness_RowFetchResolves_bare :
    resetCell.field = none ∧ ({ resetCell with field := some 1 } : Cell).field = some 1 ∧
      Tab.look 1 keyed.lay.fields = none := by decide

/-! ## Witnesses: crawl -/

/-- A link behind station 4, with a step due at lap index 4 and a held cell of tag 1. -/
def linked : State :=
  { base with
    straps := { base.straps with cr := 2, cf := 4 }
    lnk := { base.lnk with lap := 4 }
    crw := { base.crw with stepDue := true, hold := some { tag := 1, cell := blankCrawl 1 2 } } }

theorem witness_CrawlStepOnLink :
    linked.resetHeld = false ∧ linked.crw.stepDue = true ∧ role linked.straps = .link 4 ∧
      linked.crw.row = blankCrawl 15 0 :: List.replicate 79 (blankCrawl 15 0) ∧
      linked.crw.hold = some { tag := 1, cell := blankCrawl 1 2 } ∧ (1 : Byte) = linked.stepTag ∧
      (2 : Byte) ≠ linked.stepTag := by decide

/-- A head with a step due and a text queue of n cells. -/
def headWith (n : Nat) : State :=
  base.modCrw fun c => { c with stepDue := true, queue := List.replicate n (blankCrawl 1 2) }

theorem witness_CrawlStepOnHead_long :
    (headWith 80).resetHeld = false ∧ (headWith 80).crw.stepDue = true ∧ role (headWith 80).straps = .head ∧
      (headWith 80).crw.queue = blankCrawl 1 2 :: List.replicate 79 (blankCrawl 1 2) ∧
      cols (headWith 80).straps ≤ (headWith 80).crw.queue.length := by decide
theorem witness_CrawlStepOnHead_idle :
    (headWith 0).crw.queue = [] ∧ (headWith 0).crw.row = blankCrawl 15 0 :: List.replicate 79 (blankCrawl 15 0) ∧
      (∀ i, i < 32 → ((headWith 0).progEntry i).key = none) := by decide
theorem witness_CrawlStepOnHead_refill :
    let s := { base.modCrw (fun c => { c with cursor := 31 }) with
      lay := { defaultLay with prog := [(31, { key := some 0x101, label := spaces 8 })] } }
    s.crw.cursor = 31 ∧ 31 < 32 ∧ (s.progEntry 31).key = some 0x101 := by decide
/-- A step with 79 cells, and one with none, on 80 columns: entry 2 is the next keyed one from the
cursor at 31 on. -/
theorem witness_CrawlStepOnHead_refills :
    let s := fun n => { (headWith n).modCrw (fun c => { c with cursor := 31 }) with
      lay := { defaultLay with prog := [(2, { key := some 0x101, label := spaces 8 })] } }
    (s 79).resetHeld = false ∧ (s 79).crw.stepDue = true ∧ role (s 79).straps = .head ∧
      (s 79).crw.row = blankCrawl 15 0 :: List.replicate 79 (blankCrawl 15 0) ∧
      (s 79).crw.queue.length < cols (s 79).straps ∧ (s 0).crw.queue = [] ∧ 3 < 32 ∧
      2 = ((s 79).crw.cursor + 3) % 32 ∧
      (∀ m, m < 3 → ((s 79).progEntry (((s 79).crw.cursor + m) % 32)).key = none) ∧
      ((s 79).progEntry 2).key = some 0x101 := by decide

theorem witness_CrawlParcelsTaken_handoff :
    linked.hears ⟨4, 4, 0⟩ false ∧ role linked.straps = .link 4 ∧ (2 : Byte) = linked.nextTag ∧
      (1 : Byte) ≠ linked.nextTag ∧ role base.straps ≠ .link 4 := by unfold State.hears; decide
/-- At 1,000 cells a text of 24 fits, at 1,001 it does not. -/
theorem witness_CrawlParcelsTaken_text :
    let b : CrawlTextBody := { count := 24, fg := 1, bg := 2, blink := false, chars := List.replicate 24 0x41 }
    (headWith 0).hears rx true ∧ role (headWith 0).straps = .head ∧ (textCells b).length = 24 ∧
      1000 + (textCells b).length ≤ 1024 ∧ 1024 < 1001 + (textCells b).length ∧
      role linked.straps ≠ .head := by unfold State.hears; decide
theorem witness_CrawlParcelsTaken_flush :
    base.hears rx true ∧ base.allows rx.origin ∧ role base.straps = .head := ⟨base_hears, allows_base, by decide⟩

/-! ## Witnesses: status and invariants -/

theorem witness_LapStartReports :
    let s := base.modSts fun t => { t with lapDue := true }
    s.resetHeld = false ∧ s.sts.lapDue = true ∧ s.straps.sn ≠ 0 ∧ s.lnk.txq.length < 8 ∧
      s.straps.srow = true := by decide
/-- A mute station, a full transmit queue and no status row. -/
theorem witness_LapStartReports_others :
    muteBase.straps.sn = 0 ∧
      8 ≤ (base.modLnk fun l => { l with txq := List.replicate 8 (refreshParcel 6 2 1) }).lnk.txq.length ∧
      ({ base.straps with srow := false } : Straps).srow = false := by decide
theorem witness_CounterClearResets :
    base.hears rx true ∧ base.allows rx.origin ∧ base.straps.srow = true ∧ (base.claimed 3).hears rx true ∧
      (base.claimed 3).ptb.origin = some 3 ∧ (3 : Station) ≠ rx.origin :=
  ⟨base_hears, allows_base, rfl, by unfold State.hears; decide, rfl, by decide⟩
theorem witness_CounterClearResets_text :
    (base.modSts fun t => { t with text := [⟨0x41, false⟩] }).sts.text ≠ [] ∧ base.sts.text = [] := by decide

/-- A command waits, and its step answers a next state. -/
def ready (s : State) (i : Instr) : State := { s with pending := [i] }

theorem witness_BuffersStaySound :
    (ready (withInq [entry]) .intakeTake).buffersSound ∧
      step (ready (withInq [entry]) .intakeTake) = .next (after .intakeTake (withInq [entry])) := by
  refine ⟨?_, rfl⟩
  unfold State.buffersSound State.withinRooms State.queueOnce State.oneOpenEntry State.canonical
  decide
/-- A paint queue, a crawl text queue and a directory that are not empty. -/
theorem witness_BuffersStaySound_stores :
    let s := { (wanting .initial win0 paintedAt0).modCrw (fun c => { c with queue := List.replicate 1024 (blankCrawl 1 2) }) with
      inq := [entry] }
    (ready s .intakeTake).buffersSound ∧ (ready s .intakeTake).recordsMatch ∧ (ready s .intakeTake).storesSound := by
  refine ⟨?_, recordsMatch_keyed rfl rfl rfl rfl rfl rfl rfl, ?_⟩
  · unfold State.buffersSound State.withinRooms State.queueOnce State.oneOpenEntry State.canonical
    decide
  · refine ⟨by decide, by decide +kernel, by decide, by decide, by decide, by decide, ⟨by decide, by decide,
      by decide, by decide, ?_, ?_, ?_⟩, by decide, ?_⟩
    · intro b hb
      cases hb
    · intro b hb
      cases hb
    · intro g o l hg
      cases hg
    · intro e he x hx
      have h1 : e = (0x101, rcd) := List.mem_singleton.1 he
      subst h1
      have h2 : x = (0, { content := .price 12346 2, clamped := false }) := List.mem_singleton.1 hx
      subst h2
      exact ⟨by decide, by decide, by decide⟩
theorem witness_WindowsStaySound :
    (ready (shownIn win0) (.freeze rx 0)).windowsSound ∧
      step (ready (shownIn win0) (.freeze rx 0)) = .next (after (.freeze rx 0) (shownIn win0)) :=
  ⟨windowsSound_one rfl (by decide) win0_agrees, rfl⟩
theorem witness_FlashesStayListed :
    (ready (writtenWith (burst .ordinary .flash .up)) .paintCommit).flashesListed ∧
      step (ready (writtenWith (burst .ordinary .flash .up)) .paintCommit) =
        .next (after .paintCommit (writtenWith (burst .ordinary .flash .up))) :=
  ⟨flashesListed_none rfl rfl, rfl⟩
/-- A record with a source and an alternate, and a peer with seven misses. -/
theorem witness_DirectoryStaysSound :
    (ready (falling .present) (.homeSlotReport 2)).directorySound ∧
      step (ready (falling .present) (.homeSlotReport 2)) =
        .next (after (.homeSlotReport 2) (falling .present)) := by
  refine ⟨⟨recordsMatch_keyed rfl rfl rfl rfl rfl rfl rfl, ?_, ?_, ?_⟩, rfl⟩
  · intro e he n hn
    have : e = (0x101, rcd) := by simpa [ready, falling, keyed, keyedWith] using he
    subst this
    cases hn
    decide
  · intro e he
    have : e = (0x101, rcd) := by simpa [ready, falling, keyed, keyedWith] using he
    subst this
    exact fun h => absurd rfl h
  · intro n
    unfold Peer.counts
    revert n
    decide

theorem witness_ParcelRoundTrip :
    Instr.wellFormed (.tick rx (tck 3 65535)) = true ∧ rxOf (.tick rx (tck 3 65535)) = some rx := by decide

/-! ## Value arithmetic and formatting: the manual's tables -/

/-- R76. -/
theorem test_round : [roundDiv 5 2, roundDiv (-5) 2, roundDiv 1 2, roundDiv (-49) 100] = [3, -3, 1, 0] := by
  decide

/-- A price as stored. -/
def price (m : Int) (s : Nat) : Stored := { content := .price m s, clamped := false }

/-- NETCHG of a LAST and a CLOSE. -/
def net (l c : Stored) : Value := difference [(2, l), (9, c)] .last .close

/-- The table of R79. -/
theorem test_netchg :
    [net (price 1234500 4) (price 12210 2), net (price 999999999 5) (price (-5) 0),
      net (price 999999999 0) (price 1 7), net (price 999999999 0) (price (-5) 1),
      net (price 999999999 0) (price (-1) 0)] =
    [.present (.price 13500 4), .present (.price 100050000 4), .present (.price 999999999 0),
      .clamped (.price 999999999 0), .clamped (.price 999999999 0)] := by decide

/-- PCTCHG of a LAST and a CLOSE. -/
def pct (l c : Stored) (d : Nat) : Value := pctValue [(2, l), (9, c)] d

/-- The worked derived cases of R80. -/
theorem test_pctchg :
    [pct (price 1234500 4) (price 12210 2) 2, pct (price (-100) 2) (price (-200) 2) 2,
      pct (price 201 2) (price 200 2) 0, pct (price 199 2) (price 200 2) 0, pct (price 7 0) (price 0 3) 1] =
    [.present (.percentage 111 2), .present (.percentage 5000 2), .present (.percentage 1 0),
      .present (.percentage (-1) 0), .absent] ∧
    pct (price 500000000 0) (price 1 7) 2 = .clamped (.percentage 999999999 2) := by decide

/-- R81's examples, and R77 on 123.46 after 123.4567 (assumption 29). -/
theorem test_direction :
    direction (some (.present (.price 1234567 4))) (.present (.price 1234571 4)) = .up ∧
      direction (some (.present (.price 1234600 4))) (.present (.price 12346 2)) = .equal ∧
      direction (some (.present (.price 1234567 4))) (.present (.price 12346 2)) = .up := by decide

/-- A DEC text of a price, right-justified. -/
def dec (m : Int) (s d w : Nat) (plus grouping : Bool) : Text := decField (.scaled m s) d w true plus grouping

/-- The worked DEC cases of R88. -/
theorem test_dec :
    [dec 1234567 4 2 6 false false, dec 1234567 4 2 5 false false, dec 1234567 4 2 3 false false,
      dec 1234567 4 2 2 false false, dec 1234567 4 4 10 false false, dec 12449 4 3 4 false false,
      dec 123456789 2 2 12 false true, dec 123456789 2 2 11 false true, dec 123456789 2 2 10 false true,
      dec 123456789 2 2 8 false true, dec 123456789 2 2 6 false true, dec (-4) 3 3 6 false false,
      dec (-4) 3 3 5 true false, dec 99996 4 2 5 false false, dec 99996 4 2 4 false false,
      dec 4294967295 0 0 13 false true, dec 13500 4 2 6 true false] =
    ["123.46", "123.5", "123", "##", "  123.4567", "1.24", "1,234,567.89", "1,234,567.9", " 1,234,568",
      " 1234568", "######", "-0.004", " 0.00", "10.00", "10.0", "4,294,967,295", " +1.35"].map
      (fun t => chars t.toList) ∧
    decField (.ratio 1350000 1221000) 2 4 true true false = chars "+1.1".toList := by decide

/-- The worked FRAC and BOND cases, R89 and R90. -/
theorem test_frac_bond :
    [bondText 99515625 6 false, fracText 999921875 7 5 false, bondText 999921875 7 false,
      fracText 10140625 5 5 false, fracText 10140625 5 3 false, fracText 10140625 5 2 false,
      fracText 625 4 3 false, fracText (-625) 4 3 false, fracText (-625) 4 2 false, bondText (-15625) 6 false] =
    ["99-16+", "100", "100-00", "101 13/32", "101 3/8", "101 2/4", "0 1/8", "-0 1/8", "0", "-0-00+"].map
      (fun t => chars t.toList) := by decide

/-- R93's two figures under AUTO, a price at fewer and at more decimals, an ABSENT and a CLAMPED value, a
size, and a percentage from its exact quotient of 10 / 12,210. -/
theorem test_natural :
    [naturalText [] (.present (.price 1234500 4)) none false, naturalText [] (.present (.price 13500 4)) none true,
      naturalText [] (.present (.price 1234567 4)) (some 2) false, naturalText [] (.present (.price 12346 2)) (some 4) false,
      naturalText [] .absent (some 2) true, naturalText [] (.clamped (.price 5 0)) (some 2) true,
      naturalText [] (.present (.size 1234567)) (some 1) false,
      naturalText [(2, price 12220 2), (9, price 12210 2)] (.present (.percentage 8 2)) (some 4) true,
      naturalText [(2, price 12220 2), (9, price 12210 2)] (.present (.percentage 8 2)) none true] =
    ["123.4500", "+1.3500", "123.46", "123.4600", "", "#", "1234567.0", "+0.0819", "+0.08"].map
      (fun t => chars t.toList) := by decide

/-- R91 at the last second of the day, and the table of R92. -/
theorem test_time_cond :
    [hmsText 86399, hmText 86399] = ["23:59:59", "23:59"].map (fun t => chars t.toList) ∧
    (let labels : Tab Text := [(3, chars "HALTED".toList)]
    [condText labels 3 8 true, condText labels 3 4 true, condText labels 7 4 true, condText labels 12 1 false,
      condText labels 0 3 false] =
    ["HALTED  ", "HALT", "   7", "#", "0  "].map (fun t => chars t.toList)) := by decide

/-- The sequence of one BID field, R85, and the TEST texts of R121. -/
theorem test_field_text :
    (let f := { fld with format := .dec (some 2) }
    [fieldText f [] [], fieldText f [] [(0, price 1234567 4)],
      fieldText f [] [(0, { content := .price 999999999 4, clamped := true })]] =
    ["       ", " 123.46", "#######"].map (fun t => chars t.toList)) ∧
    [testText 7 4, testText 311 2] = ["   7", "##"].map (fun t => chars t.toList) := by decide

/-! ## Parcels -/

set_option maxRecDepth 20000 in
/-- The check value of the CRC with polynomial 0x1021 and start 0xFFFF, unreflected, over "123456789"
(R18; the value is the published one of that CRC). -/
theorem test_crc : crc16 (chars "123456789".toList) = 0x29B1 := by decide

/-- The bytes of a SHOW of page 5 in window 3, sent by station 2 to station 6, written from R22. -/
def showHead : List Byte := [0x22, 0x61, 3, 5] ++ List.replicate 26 0

set_option maxRecDepth 20000 in
theorem test_decode_show :
    decodeParcel 40 (withCrc showHead) = .showPage { slot := 40, origin := 2, target := 6 } 3 5 := by decide
set_option maxRecDepth 20000 in
/-- A CRC that differs, a short parcel, origin 0 and an unlisted kind (R11, R18, R19). -/
theorem test_decode_rejects :
    decodeParcel 40 (showHead ++ [0, 0]) = .crcError 40 ∧ decodeParcel 40 showHead = .crcError 40 ∧
      decodeParcel 40 (withCrc (0x20 :: showHead.drop 1)) = .malformedParcel 40 ∧
      decodeParcel 40 (withCrc (0x92 :: showHead.drop 1)) = .malformedParcel 40 := by decide
set_option maxRecDepth 20000 in
/-- A TICK of key 0x10B4C2 with IMAGE_START, sequence number 5000 and a BID of 1234500 at scale 4. -/
theorem test_decode_tick :
    decodeParcel 20 (withCrc ([0x33, 0x01, 0x10, 0xB4, 0xC2, 0x13, 0x88, 1, 0x04, 0x00, 0x12, 0xD6, 0x44]
        ++ List.replicate 17 0)) =
      .tick ⟨20, 3, 0⟩
        ⟨1, 0x10B4C2, 5000, 1, [⟨0, 4, 1234500⟩, ⟨0, 0, 0⟩, ⟨0, 0, 0⟩, ⟨0, 0, 0⟩]⟩ := by decide

/-! ## The link -/

theorem test_step_idle :
    step base = .next (base.modLnk fun l => { l with timer := 1, freeTime := some 1 }) := rfl
theorem test_reset_assert :
    (after .resetnAssert (withLnk fun l => { l with dls := some .long })).lnk.dls = none ∧
      (after .resetnAssert base).lnk.sync = .follow := by decide
/-- A DLS already low at the release (R5). -/
theorem test_reset_release :
    (after (.resetnRelease { base.straps with sn := 9, gm := 3 } true) (after .resetnAssert marked)).lnk.sync = .listen ∧
      (after (.resetnRelease { base.straps with sn := 9, gm := 3 } true) (after .resetnAssert marked)).own = 9 ∧
      (after (.resetnRelease { base.straps with sn := 9, gm := 3 } true) (after .resetnAssert marked)).lnk.lowSinceRelease
        = true := by decide
/-- A mark during slot 2 restarts the count and drops what is driven (R2, R12). -/
theorem test_mark :
    (after (.sweepMarkRecognised 700) (withLnk fun l => { l with heard := [2], txq := [refreshParcel 6 2 1] })).lnk.timer = 0 ∧
      (after (.sweepMarkRecognised 700) (withLnk fun l => { l with heard := [2] })).lnk.heard = [] := by decide
/-- Low times at the bounds of R2's table. -/
theorem test_mark_classes :
    [7, 8, 32, 33, 320, 321].map classOf = [none, some .short, some .short, some .long, some .long, none] := by
  decide
/-- A short mark at lap index 1023 wraps to 0, a long mark anywhere gives 0 (R4). -/
theorem test_mark_lap :
    (after (.markClassified 16) (marked.modLnk fun l => { l with lap := 1023 })).lnk.lap = 0 ∧
      (after (.markClassified 64) (marked.modLnk fun l => { l with lap := 500 })).lnk.lap = 0 ∧
      (after (.markClassified 64) marked).lnk.sweep = 1 := by decide
theorem test_stuck_line :
    (after .stuckLine marked).lnk.sync = .stuck ∧ (after .stuckLine marked).sts.syncSeen = true ∧
      (after .stuckLine marked).lnk.sweep = 0 := by decide
/-- A long mark only at lap index 1023 and out of lap-listen (R3, R7). -/
theorem test_timer_expiry :
    (after .sweepTimerExpiry (withLnk fun l => { l with lap := 1023, lapListen := false })).lnk.dls = some .long ∧
      (after .sweepTimerExpiry (withLnk fun l => { l with lap := 1023 })).lnk.dls = some .short ∧
      (after .sweepTimerExpiry muteBase).lnk.freeRunDue = true := by decide
theorem test_listen_expiry : (after .listenPeriodExpiry State.reset).lnk.sync = .follow := by decide
theorem test_free_run :
    (after .freeRunExpiry (after .sweepTimerExpiry muteBase)).lnk.lap = 1 ∧
      (after .freeRunExpiry muteBase).lnk.lap = 0 := by decide
/-- In STUCK a free line is marked, a line that is not gives a free-run sweep start (R10). -/
theorem test_stuck_timer :
    (after .stuckTimerExpiry (stuckFree 0)).lnk.dls = some .short ∧
      (after .stuckTimerExpiry (withLnk fun l => { l with sync := .stuck, freeTime := none })).lnk.sweep = 1 := by
  decide
/-- A fall ends the free time of a free line too, and each rise starts it again, so that a pulse below
8 bit times lets no mark be driven within 320 bit times of its rise (R10; assumption 35). -/
theorem test_edges :
    (after (.stuckLineRisingEdge 400) (withLnk fun l => { l with sync := .stuck, freeTime := none })).lnk.freeTime = some 0 ∧
      (after (.unrecognisedFallingEdge 319) (stuckFree 0)).lnk.freeTime = none ∧
      (after (.unrecognisedFallingEdge 320) (stuckFree 0)).lnk.freeTime = none ∧
      (after (.stuckLineRisingEdge 327) (stuckFree 0)).lnk.freeTime = some 0 := by decide
theorem test_lap_listen :
    (after .lapListenEnd (withLnk fun l => { l with sweep := 2047 })).lnk.lapListen = true ∧
      (after .lapListenEnd (withLnk fun l => { l with sweep := 2048 })).lnk.lapListen = false := by decide
/-- A PRESENCE of painter 6, role HEAD, in lap-listen (R13). -/
theorem test_home_slot :
    (after .homeSlotTransmit base).lnk.dld.map (fun x => x.parcel.bytes.take 6) = some [0xF6, 0x00, 3, 1, 0, 1] := by
  decide
/-- After a clash the parcel is not sent again in its slot (R14), and a mark begins a sweep in which it
is (R13). -/
theorem test_home_clash :
    let s := after .homeSlotClash (after .homeSlotTransmit base)
    s.sts.clashLatch = true ∧ (after .homeSlotTransmit s).lnk.dld = none ∧
      (after .homeSlotTransmit
        (after (.markClassified 16) (after (.sweepMarkRecognised 20480) s))).lnk.dld.isSome = true := by decide
/-- After a lost arbitration or a clash nothing is driven in the same slot; the head is offered in the
next open slot (R17). -/
theorem test_open_slot_again :
    let s := after (.openSlotOutcome (some 7)) (after (.openSlotAttempt 16) queued)
    (after (.openSlotAttempt 16) s).lnk.dld = none ∧
      (after (.openSlotAttempt 17) s).lnk.dld =
        some { slot := 17, home := false, parcel := refreshParcel 6 2 0x101 } := by decide
theorem test_open_slot :
    (after (.openSlotAttempt 15) queued).lnk.dld = none ∧
      (after (.openSlotOutcome none) (after (.openSlotAttempt 16) queued)).lnk.txq = [] ∧
      (after (.openSlotOutcome (some 7)) (after (.openSlotAttempt 16) queued)).lnk.txq.length = 1 ∧
      (after (.openSlotOutcome (some 8)) (after (.openSlotAttempt 16) queued)).sts.clashLatch = true := by decide
theorem test_crc_error : (after (.crcError 40) base).sts.counters.crc = 1 ∧ (after (.crcError 0) base).sts.counters.crc = 0 := by
  decide
theorem test_malformed : (after (.malformedParcel 40) base).sts.tallies.malformed = 1 := by decide
/-- A parcel from station 2 in its own home slot is heard; one with the own number raises CLASH (R19, R20). -/
theorem test_ignored :
    (after (.goodParcelIgnored ⟨2, 2, 0⟩ .status) base).lnk.heard = [2] ∧
      (after (.goodParcelIgnored ⟨40, 6, 0⟩ .status) base).sts.clashLatch = true ∧
      (after (.goodParcelIgnored ⟨40, 6, 0⟩ .status) base).sts.counters.good = 0 := by decide

/-! ## Peer table, marks, layout origin -/

theorem test_home_report :
    ((after (.homeSlotReport 2) (withPeer (present 6))).peer 2).misses = 7 ∧
      ((after (.homeSlotReport 2) (withPeer (present 7))).peer 2).state = .silent := by decide
/-- The eighth miss of feed 2 moves its record to station 3, in GAPPED (R67). -/
theorem test_silence_switch :
    ((after (.homeSlotReport 2) (falling .present)).record? 0x101).map Record.source = some (some 3) ∧
      ((after (.homeSlotReport 2) (falling .absent)).record? 0x101).map Record.state = some .orphaned := by decide
theorem test_presence : ((after (.presence rx ⟨9, 0, 0, false⟩) base).peer 2).kind = .other := by decide
theorem test_mark_parcel :
    ((after (.mark rx 1 0x101) keyed).record? 0x101).map Record.marks = some 1 ∧
      ((after (.mark rx 0 0x101) (after (.mark rx 1 0x101) keyed)).record? 0x101).map Record.marks = some 0 := by
  decide

/-! ## Intake and directory -/

/-- Arrivals 5 and 6 of the burst under backpressure: d = 3 sets gap, d = 65,522 is a duplicate. -/
theorem test_tick_merge :
    (after (.tick rx (tck 0 9)) (withInq [entry])).inq.map IntakeEntry.gap = [true] ∧
      (after (.tick rx (tck 0 65528)) (withInq [entry])).sts.tallies.duplicates = 1 := by decide
/-- Arrival 4: a tick of another feed makes it the alternate. -/
theorem test_tick_alternate :
    ((after (.tick ⟨40, 9, 0⟩ (tck 0 6)) keyed).record? 0x101).map Record.alternate = some (some 9) ∧
      (after (.tick ⟨40, 9, 0⟩ (tck 0 6)) keyed).inq = [] := by decide
/-- A sequence gap puts the record in GAPPED and asks its source for a refresh (R61, R69). -/
theorem test_intake_gap :
    ((after .intakeTake (withInq [{ entry with firstSeq := 8, lastSeq := 8 }])).record? 0x101).map Record.state = some .gapped ∧
      (after .intakeTake (withInq [{ entry with firstSeq := 8, lastSeq := 8 }])).dir.refresh.map RefreshEntry.target = [2] ∧
      (after .intakeTake (withInq [{ entry with firstSeq := 8, lastSeq := 8 }])).sts.counters.gaps = 1 := by decide
/-- A mantissa beyond the range is stored clamped (R57). -/
theorem test_intake_clamps :
    storePrice { value := 1000000000, scale := 4 } = { content := .price 999999999 4, clamped := true } := by decide
theorem test_stale :
    ((after .staleExpiry ((keyedWith { rcd with deadline := some 7 }).modLnk fun l => { l with sweep := 7 })).record? 0x101).map
      Record.state = some .stale ∧
    ((after .staleExpiry ((keyedWith { rcd with deadline := some 7 }).modLnk fun l => { l with sweep := 6 })).record? 0x101).map
      Record.state = some .live := by decide
theorem test_refresh_deadline :
    (after .refreshDeadline (base.modDir fun d => { d with refresh := [asked false] })).lnk.txq.length = 1 ∧
      (after .refreshDeadline (base.modDir fun d => { d with refresh := [asked true] })).sts.tallies.refreshFail = 1 := by
  decide

/-! ## Layout store -/

/-- Records 1 and 2 of the worked page: columns 0..11 and 10..19 overlap, 0..11 and 12..21 do not. -/
def twoFields (column : Byte) : FieldRecord :=
  { atPointer := true, start := 0, count := 2, first := { fldEntry with row := 0, column := 0, width := 12 },
    second := { fldEntry with row := 0, column := column, width := 10, item := 1 } }

theorem test_field_overlap :
    ((after (.field rx (twoFields 10)) base).sts.lastRefusal.map LastRefusal.reason) = some .overlap ∧
      (after (.field rx (twoFields 10)) base).lay.pointer = 0 := by decide
theorem test_field_taken :
    (after (.field rx (twoFields 12)) base).lay.pointer = 2 ∧
      ((after (.field rx (twoFields 12)) base).record? 0x101).map Record.refs = some 2 ∧
      ((after (.field rx { twoFields 12 with atPointer := false, start := 511 }) base).sts.lastRefusal.map
        LastRefusal.reason) = some .range := by decide
/-- Both clears first, then run 3, which covers cells of both, and run 7, each once (R99). -/
theorem test_field_clears :
    (after (.field rx { fldRecord 0 { fldEntry with width := 0 } with count := 2 }) twoBound).cpl.bursts.map
        (fun b => (b.kind, b.column, b.cells.length)) =
      [(.fieldClear, 0, 5), (.fieldClear, 6, 4), (.label, 0, 10), (.label, 0, 4)] := by decide
theorem test_label :
    (after (.label rx { lblRecord 30 20 with column := 70 }) base).lay.labels.map (fun e => e.2.glyphs.length) = [10] ∧
      ((after (.label rx (lblRecord 256 20)) base).sts.lastRefusal.map LastRefusal.code) = some 2 := by decide
/-- F is 23 on this painter: a band may end at row 22 and no lower (R104, R195). -/
theorem test_window :
    ((after (.window rx (winRecord 0 2 21 3)) base).window 0).state = .composing ∧
      ((after (.window rx (winRecord 0 2 22 3)) base).sts.lastRefusal.map LastRefusal.reason) = some .range := by decide
theorem test_policy :
    ((after (.policy rx (polRecord 7 4)) base).policy 7).hold = 1023 ∧
      ((after (.policy rx (polRecord 7 5)) base).sts.lastRefusal.map LastRefusal.reason) = some .range := by decide
theorem test_palette :
    (after (.palette rx ⟨15, 1, 2, 3⟩) base).rgb 15 = ⟨1, 2, 3⟩ ∧ (after (.palette rx ⟨16, 1, 2, 3⟩) base).rgb 0 = ⟨0, 0, 0⟩ := by
  decide
theorem test_condlabel :
    condLabel (after (.condlabel rx ⟨3, chars "HALTED".toList⟩) base).lay.condLabels 3 = chars "HALTED".toList := by decide
theorem test_carousel :
    (after (.carousel rx ⟨7, 15, 255, 0⟩) base).stepAt 7 15 = { page := none, dwell := 1 } ∧
      ((after (.carousel rx ⟨7, 15, 32, 1⟩) base).sts.lastRefusal.map LastRefusal.code) = some 7 := by decide
theorem test_crawlprog :
    ((after (.crawlprog rx ⟨31, true, 0x101, spaces 8⟩) base).record? 0x101).map Record.refs = some 1 ∧
      ((after (.crawlprog rx ⟨32, true, 0x101, spaces 8⟩) base).sts.lastRefusal.map LastRefusal.code) = some 8 := by decide
/-- An interval of 6 is taken as 4 (R111), a duty of 0 as 1 and of 16 as 15 (R95). -/
theorem test_global :
    (after (.global rx ⟨0, 8, 11, 6, 15, 0, 7, 0, 3, 3, 3, 3, 3, 3, 3⟩) base).lay.global.interval = 4 ∧
      (after (.global rx ⟨0, 8, 11, 6, 15, 0, 7, 0, 3, 3, 3, 3, 3, 3, 3⟩) base).lay.global.blinkDuty = 1 ∧
      (after (.global rx ⟨0, 8, 11, 255, 15, 0, 7, 16, 3, 3, 3, 3, 3, 3, 3⟩) base).lay.global.blinkDuty = 15 := by decide
theorem test_layout_bad_kind :
    (after (.layoutBadKind rx .k10) base).sts.lastRefusal =
      some { kind := 7, code := 10, reason := .range, origin := 2 } ∧
    (after (.layoutBadKind rx .k10) base).ptb.origin = some 2 := by decide
theorem test_command_bad_code :
    (after (.commandBadCode rx .c15) base).sts.lastRefusal =
      some { kind := 2, code := 15, reason := .range, origin := 2 } ∧
    (after (.commandBadCode rx .c15) (base.claimed 3)).sts.lastRefusal =
      some { kind := 2, code := 15, reason := .foreign, origin := 2 } := by decide
theorem test_layout_clear :
    (after (.layoutClear rx) (shownIn win0)).win = [] ∧ (after (.layoutClear rx) (shownIn win0)).lay.fields = [] := by
  decide

/-! ## Windows -/

theorem test_show :
    ((after (.showPage rx 0 7) (carouselIn .running .showing)).window 0).carousel = .pinned ∧
      ((after (.showPage rx 7 3) twoWindows).sts.lastRefusal.map LastRefusal.reason) = some .busy := by decide
theorem test_release :
    ((after (.release rx 0) (carouselIn .pinned .showing)).window 0).page = some 5 ∧
      ((after (.release rx 0) (carouselIn .pinned .showing)).window 0).dwell = 1 := by decide
theorem test_run :
    ((after (.run rx 0) (carouselIn .stopped .showing)).window 0).dwell = 32 ∧
      ((after (.run rx 7) base).sts.lastRefusal.map LastRefusal.code) = some 3 := by decide
theorem test_halt : ((after (.halt rx 0) (carouselIn .running .frozen)).window 0).carousel = .stopped := by decide
theorem test_freeze : ((after (.freeze rx 0) (shownIn win0)).window 0).state = .frozen := by decide
theorem test_thaw :
    (after (.thaw rx 0) (shownIn { win0 with state := .frozen, dirty := true })).pnt.queue = [⟨0, .thaw⟩] := by decide
theorem test_override :
    (after (.override rx 0 1) (shownIn win0)).pnt.queue = [⟨0, .repaint⟩] ∧
      ((after (.override rx 0 3) (shownIn win0)).sts.lastRefusal.map LastRefusal.code) = some 7 := by decide
/-- An expiry skips a page shown elsewhere and wraps; in FROZEN it sets advance-due (R147, R149). -/
theorem test_dwell :
    ((after (.dwellExpiry 0) (carouselIn .running .showing)).window 0).step = 1 ∧
      ((after (.dwellExpiry 0) (carouselIn .running .frozen)).window 0).advanceDue = true := by decide

/-! ## Painter -/

theorem test_paint_service :
    ((after .paintService ((wanting .ordinary win0 paintedAt0).modLnk fun l => { l with sweep := 10 })).pnt.burst.map
      fun b => (b.row, b.column, b.cells.map Cell.glyph)) =
      some (3, 10, (chars " 123.46".toList).map fun c => c.setWidth 9) := by decide
/-- Sweep 101 of the worked bid: held back, due at the throttle's end. -/
theorem test_paint_held :
    ((after .paintService ((wanting .ordinary win0 paintedAt0).modLnk fun l => { l with sweep := 9 })).paintState 0).pending =
      some 10 := by decide
theorem test_commit_flash :
    (after .paintCommit ((writtenWith (burst .ordinary .flash .down)).modLnk fun l => { l with sweep := 5003 })).pnt.highlights =
      [⟨0, 5515⟩] ∧
    ((after .paintCommit (writtenWith (burst .ordinary .flash .down))).paintState 0).flash = .down := by decide
/-- A hold of 0 sets no flash; under FLASH_STICKY the stick moves at once (R125, R127). -/
theorem test_commit_no_hold :
    ((after .paintCommit (writtenWith { burst .ordinary .flashSticky .up with hold := 0 })).paintState 0).stick = .up ∧
      (after .paintCommit (writtenWith { burst .ordinary .flashSticky .up with hold := 0 })).pnt.highlights = [] := by decide
theorem test_pending_release :
    (after .pendingRelease (keyed.modPnt fun p => { p with states := [(0, { initialPaint with pending := some 0 })] })).pnt.queue =
      [⟨0, .ordinary⟩] := by decide
/-- An expiry gives the stick its flash under FLASH_STICKY (R132). -/
theorem test_highlight_expiry :
    let s := (keyed.modPnt fun p => { p with states := [(0, { initialPaint with flash := .down })], highlights := [⟨0, 0⟩] }).modLay
      fun l => { l with policies := [(0, { defaultPolicy with mode := .flashSticky })] }
    ((after .highlightExpiry s).paintState 0).stick = .down ∧ ((after .highlightExpiry s).paintState 0).flash = .none := by
  decide

/-! ## Cell plane and display -/

/-- The worked stretch at the port: the crawl row write first, then by turns. -/
theorem test_port_grant :
    ((after .portGrant ((contended .compose).modCpl fun c => { c with crawlReq := true })).cpl.granted.map Write.row) = some 23 ∧
      (after .portGrant (contended .compose)).cpl.turn = .painter ∧
      (after .portGrant (contended .painter)).cpl.turn = .compose := by decide
theorem test_transfer : (after .transferComplete (granted .painter 255)).cell 2 255 = blankCell 4 := by decide
theorem test_compose_ends :
    ((after .transferComplete (lastBurst [])).window 0).state = .showing ∧
      (after .transferComplete (lastBurst [(0, fld)])).pnt.queue = [⟨0, .initial⟩] := by decide
set_option maxRecDepth 20000 in
/-- With room for one of two bursts the last is reported at once, while the first waits (R142, R179;
assumption 36). -/
theorem test_hand_over_full :
    let s := (base.modCpl fun c => { c with bursts := List.replicate 1023 bst })
    (handOver [bst, bst] (.initial [0]) s).pnt.queue = [⟨0, .initial⟩] ∧
      (handOver [bst, bst] (.initial [0]) s).cpl.bursts.length = 1024 ∧
      (handOver [bst] (.initial [0]) s).pnt.queue = [] := by decide
/-- A SHOW that abandons a compose withdraws its waiting bursts; one that releases a page leaves those of
its ended compose in the list, before the new ones (R146, R179). -/
theorem test_end_page_bursts :
    let s := fun st c => { shownIn { win0 with state := st, compose := c } with cpl := { resetCpl with bursts := [bst] } }
    (after (.showPage rx 0 7) (s .composing (some (.fields [0])))).cpl.bursts.length = 10 ∧
      (after (.showPage rx 0 7) (s .showing none)).cpl.bursts.length = 11 ∧
      (after (.showPage rx 0 7) (s .frozen none)).cpl.bursts.head? = some bst := by decide
/-- With c = 5 and k = 8 the phase is ON for lap indices 0..255 and 512..767 (R189). -/
theorem test_frame_start :
    [255, 256, 511, 512, 767, 768].map (fun lap => blinkPhase lap 5 8) = [true, false, false, true, true, false] ∧
      (after .frameStart (withLnk fun l => { l with lap := 256 })).cpl.blinkOn = false := by decide
theorem test_row_fetch :
    (after .rowFetch base).cpl.nextRow = 1 ∧
      (after .rowFetch ((granted .crawl 0).modCpl fun c => { c with nextRow := 2 })).cpl.fetchReq = some 2 := by decide

/-- The policy of the worked resolutions. -/
def pol20 : Policy :=
  { defaultPolicy with
    mode := .flashSticky, upFg := 0, upBg := 10, downFg := 15, downBg := 9, upStick := 10, downStick := 9,
    blinkFlash := true }

/-- A row of the worked resolutions of R188. -/
def resolve (st : RecordState) (marks : Nat) (k : TextKind) (f : Flash) (j : Stick) (on : Bool) : Pair :=
  fieldPair defaultGlobal { fld with fg := 15, bg := 1 } pol20
    { initialPaint with textKind := k, flash := f, stick := j } st marks on false

theorem test_worked_resolutions :
    [resolve .live 0 .value .up .none true, resolve .live 0 .value .up .none false,
      resolve .live 0 .value .none .down false, resolve .gapped 0 .value .up .none false,
      resolve .stale 2 .value .none .up true, resolve .live 1 .overridden .down .up false,
      resolve .orphaned 0 .condition .none .none true] =
    [(0, 10), (10, 10), (9, 1), (11, 1), (1, 8), (15, 15), (8, 1)] := by decide

/-! ## Crawl -/

theorem test_crawl_step_link :
    (after .crawlStep linked).crw.row.getLast? = some (blankCrawl 1 2) ∧
      (after .crawlStep (linked.modCrw fun c => { c with hold := some ⟨2, blankCrawl 1 2⟩ })).sts.counters.underLate = 1 := by
  decide
/-- Step 1 of the worked refill: entry 1 passed, entry 2 appended, its first cell taken. -/
theorem test_crawl_step_head :
    let s := { (headWith 0).modCrw (fun c => { c with cursor := 1 }) with
      lay := { defaultLay with prog := [(0, { key := some 1, label := chars "BUND    ".toList }),
        (2, { key := some 2, label := chars "EURUSD  ".toList })] } }
    (after .crawlStep s).crw.queue.length = 12 ∧ (after .crawlStep s).crw.cursor = 3 := by decide

/-- The quote entries of R172. -/
theorem test_quote :
    let q := fun items => quoteEntry defaultGlobal defaultPolicy (chars "BUND    ".toList)
      (some { rcd with items := items })
    [q [(2, price 12345 2), (9, price 12300 2)], q [(2, price 1234500 4), (9, price 12210 2)],
      q [(2, price 12300 2), (9, price 12300 2)], q [(2, price 12345 2)]].map (fun l => l.map CrawlCell.glyph) =
    ["BUND 123.45 +0.45   ", "BUND 123.4500 +1.3500   ", "BUND 123.00 0.00   ", "BUND 123.45   "].map
      (fun t => (chars t.toList).map fun c => c.setWidth 9) := by decide
theorem test_handoff :
    (after (.handoff ⟨4, 4, 0⟩ ⟨2, 0x41, 1, 2, false⟩) linked).crw.hold = some ⟨2, ⟨0x41, 1, 2, false⟩⟩ ∧
      (after (.handoff ⟨4, 4, 0⟩ ⟨1, 0x41, 1, 2, false⟩) linked).sts.counters.underLate = 1 := by decide
theorem test_crawltext :
    (after (.crawltext rx ⟨25, 1, 2, false, List.replicate 24 0x41⟩) base).crw.queue.length = 24 ∧
      (after (.crawltext rx ⟨0, 1, 2, false, List.replicate 24 0x41⟩) base).crw.queue = [] := by decide
theorem test_crawl_flush : (after (.crawlFlush rx) (headWith 3)).crw.queue = [] := by decide

/-! ## Status -/

/-- Painter 6 at the lap start of the worked report. -/
def reported : State :=
  { base with
    lay := { defaultLay with
      fields := [(0, fld)]
      global := { defaultGlobal with silent := .parcel, drop := .row } }
    sts := { resetSts with
      lapDue := true
      foreignLatch := true
      lastRefusal := some ⟨2, 1, .foreign, 12⟩
      counters := { zeroCounters 32 with dropped := 12, refusals := 1 }
      tallies := { zeroTallies with duplicates := 4 } }
    ptb := { base.ptb with
      peers := [(3, ⟨.silent, .unknown, 8⟩), (11, ⟨.silent, .unknown, 8⟩)] }
    dir := { records := (List.range 7).map (fun i => (i, { rcd with state := if i < 2 then .orphaned else .gapped }))
             refresh := [] } }

theorem test_lap_start_row :
    ((after .lapStart reported).sts.text.map StatusChar.code).take 35 =
      chars "S06 ORPH:2 GAP:5 DROP:12 FGN DUP:4 ".toList := by decide
/-- Alarm set byte 0x4C, silent-station set 0x0404, counts 2, 0, 5, last refusal 0x21, 4, 12. -/
theorem test_lap_start_parcel :
    (after .lapStart reported).lnk.txq.map (fun p => (p.body.take 6, (p.body.drop 22).take 3)) =
      [([0x4C, 0x04, 0x04, 2, 0, 5], [0x21, 4, 12])] := by decide
/-- A write that waits at a LAYOUT CLEAR copies the text built before it (assumption 43). -/
theorem test_layout_clear_text :
    (after (.layoutClear rx) (after .lapStart reported)).sts.text = (after .lapStart reported).sts.text ∧
      (after (.layoutClear rx) (after .lapStart reported)).cpl.statusReq = true := by decide
/-- No status row text is built before the first lap start (R199; assumption 40). -/
theorem test_no_row_before_lap :
    (after (.counterClear rx) base).sts.text = [] ∧
      (after (.global rx ⟨0, 8, 11, 6, 15, 0, 7, 0, 3, 3, 3, 3, 3, 3, 3⟩) base).cpl.statusReq = false := by
  decide
theorem test_counter_clear :
    ((after (.counterClear rx) (after .lapStart reported)).sts.text.map StatusChar.code).take 17 =
      chars "S06 ORPH:2 GAP:5 ".toList := by decide

end Sys2Proof.Tests
end

/-! PROOFS. The layout-origin checks refuse every COMMAND and LAYOUT record of a foreign station
(R32 to R34). -/

namespace Sys2Proof.Machine

theorem bump_of_ne_allOnes {c : BitVec 32} (h : c ≠ BitVec.allOnes 32) : bump c = c + 1 := if_neg h

/-- The one thing the checked commands share: each passes receive filtering and the check of its
parcel kind before its own block sees the parcel. -/
theorem exec_of_checked {i : Instr} {rx : Rx} {kind code : Nibble}
    (h : i.checked = some (rx, kind, code)) :
    (kind = 2 ∧ ∃ act, ∀ s, exec i s = running (commandParcel rx code act) s) ∨
    (kind = 7 ∧ ∃ act, ∀ s, exec i s = running (layoutParcel rx code act) s) :=
  match i, h with
  | .commandBadCode .., rfl | .showPage .., rfl | .release .., rfl | .run .., rfl | .halt .., rfl
  | .freeze .., rfl | .thaw .., rfl | .override .., rfl | .crawlFlush .., rfl
  | .counterClear .., rfl | .layoutClear .., rfl =>
    .inl ⟨rfl, _, fun _ => rfl⟩
  | .layoutBadKind .., rfl | .field .., rfl | .label .., rfl | .window .., rfl | .policy .., rfl
  | .palette .., rfl | .condlabel .., rfl | .carousel .., rfl | .crawlprog .., rfl
  | .global .., rfl =>
    .inr ⟨rfl, _, fun _ => rfl⟩

theorem commandParcel_foreign {s : State} {rx : Rx} {o : Station} (code : Nibble)
    (act : State → State) (hh : s.hears rx true) (ho : s.ptb.origin = some o) (hne : o ≠ rx.origin) :
    commandParcel rx code act s = (s.arrived rx).refuse 2 code .foreign rx.origin := by
  rw [commandParcel, receive_hears _ hh]
  exact commandCheck_foreign _ _ ho hne

theorem layoutParcel_foreign {s : State} {rx : Rx} {o : Station} (kind : Nibble)
    (act : State → State) (hh : s.hears rx true) (ho : s.ptb.origin = some o) (hne : o ≠ rx.origin) :
    layoutParcel rx kind act s = (s.arrived rx).refuse 7 kind .foreign rx.origin := by
  rw [layoutParcel, receive_hears _ hh]
  exact layoutCheck_foreign _ _ ho hne

/-- Whatever block a checked parcel is for, a foreign one ends at the origin check. -/
theorem exec_checked_foreign {i : Instr} {rx : Rx} {kind code : Nibble} {o : Station} {s : State}
    (hi : i.checked = some (rx, kind, code)) (hh : s.hears rx true) (ho : s.ptb.origin = some o)
    (hne : o ≠ rx.origin) :
    exec i s = .next ((s.arrived rx).refuse kind code .foreign rx.origin) := by
  have ⟨hhigh, _⟩ := hh
  obtain ⟨rfl, act, hact⟩ | ⟨rfl, act, hact⟩ := exec_of_checked hi
  · rw [hact, running_of_high hhigh, commandParcel_foreign _ _ hh ho hne]
  · rw [hact, running_of_high hhigh, layoutParcel_foreign _ _ hh ho hne]

theorem State.refuse_foreign_eq (kind code : Nibble) (origin : Station) (s : State) :
    s.refuse kind code .foreign origin =
      { s with sts := { s.sts with
        counters := { s.sts.counters with refusals := bump s.sts.counters.refusals }
        lastRefusal := some { kind := kind, code := code, reason := .foreign, origin := origin }
        foreignLatch := true } } := by
  simp [State.refuse, State.modSts]

/-- Settles O32: the origin check refuses the parcel before its block, and a refusal writes STS alone. -/
theorem foreignRefused : Obligations.ForeignRefused := by
  intro i rx kind code o s hi hh ho hne
  refine ⟨_, exec_checked_foreign hi hh ho hne, ?_⟩
  rw [State.refuse_foreign_eq]
  exact ⟨bump_of_ne_allOnes, rfl⟩

end Sys2Proof.Machine

/-! PROOFS. The commit of an ordinary paint under STICKY and SIGN (R126, R128): neither policy mode
calls for a flash, so such a commit is one change of the field's paint state. -/

namespace Sys2Proof.Machine

/-- A written burst whose field is still bound is cleared and committed (R123). -/
theorem exec_paintCommit_written {s : State} {b : PaintBurst} (hr : s.resetHeld = false)
    (hb : s.pnt.burst = some b) (hw : b.stage = .written) (hu : b.unbound = false) :
    exec .paintCommit s = .next (commitBurst b (s.modPnt fun p => { p with burst := none })) := by
  have hexec : exec .paintCommit s = running commitPaint s := rfl
  rw [hexec, running_of_high hr]
  simp [commitPaint, hb, hw, hu]

theorem ordinaryFlash_sticky_or_sign {b : PaintBurst} (hm : b.mode = .sticky ∨ b.mode = .sign) :
    ordinaryFlash b = none := by
  obtain h | h := hm <;> simp [ordinaryFlash, h]

theorem ordinaryStick_sticky {b : PaintBurst} (h : b.mode = .sticky) (k : Stick) :
    ordinaryStick b k = moveStick b.dir k := by simp [ordinaryStick, h]

theorem ordinaryStick_sign {b : PaintBurst} (h : b.mode = .sign) (k : Stick) :
    ordinaryStick b k = signStick (sign b.value) := by simp [ordinaryStick, h]

/-- A commit sets no flash where the policy mode calls for none, whether or not the field is visible. -/
theorem commitFlash_of_ordinaryFlash_none {b : PaintBurst} (h : ordinaryFlash b = none) (s : State) :
    commitFlash s b = none := by simp [commitFlash, h]

/-- An ordinary commit that sets no flash changes the field's paint state and nothing else. -/
theorem commitBurst_ordinary_of_no_flash {s : State} {b : PaintBurst} (hk : b.kind = .ordinary)
    (hf : ordinaryFlash b = none) :
    commitBurst b s = s.modPaint b.index (committed s.now b) := by
  simp [commitBurst, hk, PaintKind.startsAfresh, commitFlash_of_ordinaryFlash_none hf]

/-- With the field's own text an ordinary commit moves the stick by the policy mode and leaves the
flash. -/
theorem committed_ordinary_own {b : PaintBurst} (hk : b.kind = .ordinary)
    (ht : b.textKind = .value ∨ b.textKind = .condition) (now : Sweep) (p : PaintState) :
    committed now b p =
      { painted now b.textKind p with
        stick := ordinaryStick b p.stick, lastValue := some b.value } := by
  have hown : b.textKind.isOwn = true := by obtain h | h := ht <;> rw [h] <;> rfl
  simp [committed, hk, hown]

/-- An ordinary commit with the field's own text, under a mode that calls for no flash: the stick is
moved by the mode, and the flash and the highlight list are as they were. -/
theorem commitBurst_ordinary_own {s : State} {b : PaintBurst} (hk : b.kind = .ordinary)
    (ht : b.textKind = .value ∨ b.textKind = .condition) (hf : ordinaryFlash b = none) :
    ((commitBurst b s).paintState b.index).flash = (s.paintState b.index).flash ∧
      ((commitBurst b s).paintState b.index).stick =
        ordinaryStick b (s.paintState b.index).stick ∧
      (commitBurst b s).pnt.highlights = s.pnt.highlights := by
  have hpaint : (commitBurst b s).paintState b.index = committed s.now b (s.paintState b.index) := by
    rw [commitBurst_ordinary_of_no_flash hk hf, State.paintState_modPaint, if_pos rfl]
  rw [hpaint, committed_ordinary_own hk ht, commitBurst_ordinary_of_no_flash hk hf]
  exact ⟨rfl, rfl, rfl⟩

/-- What such a commit completes with, in terms of the state that the command finds. -/
theorem exec_paintCommit_ordinary_own {s : State} {b : PaintBurst} (hr : s.resetHeld = false)
    (hb : s.pnt.burst = some b) (hw : b.stage = .written) (hu : b.unbound = false)
    (hk : b.kind = .ordinary) (ht : b.textKind = .value ∨ b.textKind = .condition) :
    ∃ t, exec .paintCommit s = .next t ∧ (ordinaryFlash b = none →
      (t.paintState b.index).flash = (s.paintState b.index).flash ∧
        (t.paintState b.index).stick = ordinaryStick b (s.paintState b.index).stick ∧
        t.pnt.highlights = s.pnt.highlights) :=
  ⟨_, exec_paintCommit_written hr hb hw hu, commitBurst_ordinary_own hk ht⟩

/-- Settles O43: under STICKY and SIGN no flash is set, so the commit moves the stick alone, by the
direction or by the sign of the value. -/
theorem stickyAndSignCommit : Obligations.StickyAndSignCommit := by
  intro s b hr hb hw hu hk ht
  obtain ⟨t, hexec, hcommit⟩ := exec_paintCommit_ordinary_own hr hb hw hu hk ht
  have hsticky (hm : b.mode = .sticky) :
      (t.paintState b.index).stick = moveStick b.dir (s.paintState b.index).stick := by
    obtain ⟨-, hstick, -⟩ := hcommit (ordinaryFlash_sticky_or_sign (.inl hm))
    rw [hstick, ordinaryStick_sticky hm]
  have hsign (hm : b.mode = .sign) :
      (t.paintState b.index).stick = signStick (sign b.value) := by
    obtain ⟨-, hstick, -⟩ := hcommit (ordinaryFlash_sticky_or_sign (.inr hm))
    rw [hstick, ordinaryStick_sign hm]
  refine ⟨t, hexec, fun hm => ?frame, fun hm hd => ?up, fun hm hd => ?down, fun hm hd => ?stays,
    fun hm hv => ?positive, fun hm hv => ?negative, fun hm hv => ?clears⟩
  case frame =>
    obtain ⟨hflash, -, hlist⟩ := hcommit (ordinaryFlash_sticky_or_sign hm)
    exact ⟨hflash, hlist⟩
  case up => rw [hsticky hm, hd, moveStick]
  case down => rw [hsticky hm, hd, moveStick]
  case stays => obtain hd | hd := hd <;> rw [hsticky hm, hd, moveStick]
  case positive => rw [hsign hm, hv, signStick]
  case negative => rw [hsign hm, hv, signStick]
  case clears => obtain hv | hv := hv <;> rw [hsign hm, hv, signStick]

end Sys2Proof.Machine

/-! PROOFS. The blocks that each operation of the model can change: one frame equation per operation,
the rest of the state as it was. -/

namespace Sys2Proof.Machine

/-- What a frame equation says of one field. -/
theorem read_of_frame {α : Type} (g : State → α) {s t u : State} (h : t = u) (hu : g u = g s) :
    g t = g s := h ▸ hu

/-! ## Composes and carousels -/

theorem settleCompose_frame (w : Nat) (s : State) :
    settleCompose w s = { s with win := (settleCompose w s).win } := by
  unfold settleCompose
  split <;> rfl

theorem initialDone_frame (f : Nat) (s : State) :
    initialDone f s = { s with win := (initialDone f s).win } := by
  unfold initialDone
  split
  · rfl
  · rw [settleCompose_frame]; rfl

theorem enterFields_frame (w : Nat) (s : State) :
    enterFields w s = { s with pnt := (enterFields w s).pnt, win := (enterFields w s).win } := by
  unfold enterFields
  split
  · rfl
  · split
    · rw [settleCompose_frame]; rfl
    · rfl

theorem runAfter_frame (a : After) (s : State) :
    runAfter a s = { s with pnt := (runAfter a s).pnt, win := (runAfter a s).win } := by
  cases a with
  | nothing => rfl
  | initial => rfl
  | repaint => rfl
  | fieldsPhase w => exact enterFields_frame w s

theorem handOver_frame (bursts : List Burst) (a : After) (s : State) :
    handOver bursts a s =
      { s with
        pnt := (handOver bursts a s).pnt
        win := (handOver bursts a s).win
        cpl := (handOver bursts a s).cpl } := by
  unfold handOver
  dsimp only
  split
  · rw [runAfter_frame]; rfl
  · rfl

theorem withdrawBursts_frame (w : Nat) (s : State) :
    withdrawBursts w s = { s with cpl := (withdrawBursts w s).cpl } := rfl

theorem abandonBursts_frame (w : Nat) (s : State) :
    abandonBursts w s = { s with cpl := (abandonBursts w s).cpl } := by
  unfold abandonBursts
  split <;> rfl

theorem endPage_frame (w : Nat) (s : State) :
    endPage w s =
      { s with pnt := (endPage w s).pnt, win := (endPage w s).win, cpl := (endPage w s).cpl } := by
  obtain ⟨-, h⟩ | ⟨-, -, -, -, -, h⟩ := endPage_cases w s
  · rw [h]
  · exact h

theorem beginCompose_frame (w p : Nat) (s : State) :
    beginCompose w p s =
      { s with
        pnt := (beginCompose w p s).pnt
        win := (beginCompose w p s).win
        cpl := (beginCompose w p s).cpl } := by
  unfold beginCompose
  dsimp only
  rw [handOver_frame, endPage_frame]; rfl

theorem tallySkips_frame (n : Nat) (s : State) :
    tallySkips n s = { s with sts := (tallySkips n s).sts } := by
  induction n generalizing s with
  | zero => rfl
  | succ n ih => rw [tallySkips, ih]; rfl

theorem selectStep_frame (w i : Nat) (s : State) :
    selectStep w i s =
      { s with
        pnt := (selectStep w i s).pnt
        win := (selectStep w i s).win
        cpl := (selectStep w i s).cpl
        sts := (selectStep w i s).sts } := by
  unfold selectStep
  dsimp only
  split
  · rfl
  · split
    · rw [tallySkips_frame]; rfl
    · split
      · rw [tallySkips_frame]; rfl
      · split
        · rw [tallySkips_frame]; rfl
        · rw [beginCompose_frame, tallySkips_frame]; rfl

theorem advance_frame (w : Nat) (s : State) :
    advance w s =
      { s with
        pnt := (advance w s).pnt
        win := (advance w s).win
        cpl := (advance w s).cpl
        sts := (advance w s).sts } := by
  unfold advance
  split
  · rfl
  · exact selectStep_frame ..

theorem expireDwell_frame (w : Nat) (s : State) :
    expireDwell w s =
      { s with
        pnt := (expireDwell w s).pnt
        win := (expireDwell w s).win
        cpl := (expireDwell w s).cpl
        sts := (expireDwell w s).sts } := by
  unfold expireDwell
  split
  · rfl
  · exact advance_frame ..

theorem resumeStep_frame (w : Nat) (s : State) :
    resumeStep w s =
      { s with
        pnt := (resumeStep w s).pnt
        win := (resumeStep w s).win
        cpl := (resumeStep w s).cpl
        sts := (resumeStep w s).sts } := by
  unfold resumeStep
  dsimp only
  split
  · rfl
  · split
    · rw [expireDwell_frame]; rfl
    · split
      · rfl
      · split
        · rw [expireDwell_frame]; rfl
        · split
          · rfl
          · rw [beginCompose_frame]

/-! ## The directory, the marks and the refresh requests -/

theorem askRefresh_frame (k : Key) (s : State) :
    askRefresh k s = { s with dir := (askRefresh k s).dir } := by
  unfold askRefresh
  split
  · rfl
  · split <;> rfl

theorem settleKey_frame (s : State) (k : Key) :
    settleKey s k = { s with dir := (settleKey s k).dir } := by
  unfold settleKey
  dsimp only
  split <;> split <;> rfl

theorem settleKeys_frame (keys : List Key) (s : State) :
    settleKeys keys s = { s with dir := (settleKeys keys s).dir } := by
  unfold settleKeys
  induction keys generalizing s with
  | nil => rfl
  | cons k keys ih => rw [List.foldl_cons, ih, settleKey_frame]

theorem settleMarks_frame (s : State) (k : Key) :
    settleMarks s k = { s with dir := (settleMarks s k).dir } := by
  unfold settleMarks
  split <;> rfl

theorem foldl_settleMarks_frame (keys : List Key) (s : State) :
    keys.foldl settleMarks s = { s with dir := (keys.foldl settleMarks s).dir } := by
  induction keys generalizing s with
  | nil => rfl
  | cons k keys ih => rw [List.foldl_cons, ih, settleMarks_frame]

theorem setMark_frame (n : Station) (m : Option Key) (s : State) :
    setMark n m s = { s with ptb := (setMark n m s).ptb, dir := (setMark n m s).dir } := by
  unfold setMark
  dsimp only
  rw [foldl_settleMarks_frame]; rfl

theorem switchOne_frame (gone : Station) (s : State) (k : Key) :
    switchOne gone s k = { s with dir := (switchOne gone s k).dir } := by
  unfold switchOne
  split
  · rfl
  · split
    · dsimp only
      split
      · rw [askRefresh_frame]; rfl
      · rfl
    · split <;> rfl

theorem foldl_switchOne_frame (gone : Station) (keys : List Key) (s : State) :
    keys.foldl (switchOne gone) s = { s with dir := (keys.foldl (switchOne gone) s).dir } := by
  induction keys generalizing s with
  | nil => rfl
  | cons k keys ih => rw [List.foldl_cons, ih, switchOne_frame]

theorem switchSources_frame (gone : Station) (s : State) :
    switchSources gone s = { s with dir := (switchSources gone s).dir } :=
  foldl_switchOne_frame ..

theorem stationGone_frame (n : Station) (s : State) :
    stationGone n s = { s with ptb := (stationGone n s).ptb, dir := (stationGone n s).dir } := by
  unfold stationGone
  rw [setMark_frame, switchSources_frame]; rfl

theorem reportStation_frame (n : Station) (s : State) :
    reportStation n s =
      { s with
        lnk := (reportStation n s).lnk
        ptb := (reportStation n s).ptb
        dir := (reportStation n s).dir } := by
  unfold reportStation
  dsimp only
  split
  · rw [stationGone_frame]; rfl
  · rfl

theorem takePresence_frame (n : Station) (k : PeerKind) (s : State) :
    takePresence n k s =
      { s with ptb := (takePresence n k s).ptb, dir := (takePresence n k s).dir } := by
  unfold takePresence
  dsimp only
  split
  · rw [stationGone_frame]; rfl
  · rfl

theorem dropNotice_frame (k : Key) (s : State) :
    dropNotice k s = { s with dir := (dropNotice k s).dir } := by
  unfold dropNotice
  split
  · rfl
  · rw [askRefresh_frame]; rfl

theorem handleRefresh_frame (e : RefreshEntry) (s : State) :
    (handleRefresh e s).2 =
      { s with lnk := (handleRefresh e s).2.lnk, sts := (handleRefresh e s).2.sts } := by
  unfold handleRefresh
  dsimp only
  split
  · split <;> rfl
  · split
    · split
      · rfl
      · split <;> rfl
    · rfl

theorem refreshPass_frame (deadlines : Bool) (l : List RefreshEntry) (s : State) :
    (refreshPass deadlines l s).2 =
      { s with
        lnk := (refreshPass deadlines l s).2.lnk, sts := (refreshPass deadlines l s).2.sts } := by
  induction l generalizing s with
  | nil => rfl
  | cons e l ih =>
    unfold refreshPass
    split
    · exact ih s
    · split
      · rfl
      · dsimp only
        rw [ih, handleRefresh_frame]

theorem runRefreshPass_frame (deadlines : Bool) (s : State) :
    runRefreshPass deadlines s =
      { s with
        lnk := (runRefreshPass deadlines s).lnk
        dir := (runRefreshPass deadlines s).dir
        sts := (runRefreshPass deadlines s).sts } := by
  unfold runRefreshPass
  dsimp only
  rw [refreshPass_frame]; rfl

theorem sweepStart_frame (m : MarkClass) (s : State) :
    sweepStart m s =
      { s with
        lnk := (sweepStart m s).lnk
        dir := (sweepStart m s).dir
        win := (sweepStart m s).win
        crw := (sweepStart m s).crw
        sts := (sweepStart m s).sts } := by
  unfold sweepStart beginRefreshPass
  rw [runRefreshPass_frame]; rfl

/-! ## The intake -/

theorem placeTick_frame (origin : Station) (b : TickBody) (s : State) :
    placeTick origin b s =
      { s with
        inq := (placeTick origin b s).inq
        dir := (placeTick origin b s).dir
        sts := (placeTick origin b s).sts } := by
  unfold placeTick
  split
  · rfl
  · rw [dropNotice_frame]; rfl

theorem routeTick_frame (origin : Station) (b : TickBody) (s : State) :
    routeTick origin b s =
      { s with
        inq := (routeTick origin b s).inq
        dir := (routeTick origin b s).dir
        sts := (routeTick origin b s).sts } := by
  unfold routeTick
  split
  · exact placeTick_frame ..
  · split
    · split <;> rfl
    · rw [placeTick_frame]; rfl

theorem takeTick_frame (origin : Station) (b : TickBody) (s : State) :
    takeTick origin b s =
      { s with
        inq := (takeTick origin b s).inq
        dir := (takeTick origin b s).dir
        sts := (takeTick origin b s).sts } := by
  unfold takeTick
  split
  · rfl
  · dsimp only
    split
    · rw [routeTick_frame]; rfl
    · rfl

theorem commitApply_frame (k : Key) (a : Applied) (s : State) :
    commitApply k a s =
      { s with
        dir := (commitApply k a s).dir
        pnt := (commitApply k a s).pnt
        sts := (commitApply k a s).sts } := by
  have hask (u : State) : (if a.asked then askRefresh k u else u) =
      { u with dir := (if a.asked then askRefresh k u else u).dir } := by
    split
    · exact askRefresh_frame k u
    · rfl
  unfold commitApply
  dsimp only
  rw [hask]
  cases a.gap <;> split <;> rfl

theorem takeEntry_frame (e : IntakeEntry) (s : State) :
    takeEntry e s =
      { s with
        dir := (takeEntry e s).dir
        pnt := (takeEntry e s).pnt
        sts := (takeEntry e s).sts } := by
  unfold takeEntry
  split
  · rfl
  · split
    · split
      · rfl
      · exact commitApply_frame ..
    · rfl

theorem takeHead_frame (s : State) :
    takeHead s =
      { s with
        inq := (takeHead s).inq
        dir := (takeHead s).dir
        pnt := (takeHead s).pnt
        sts := (takeHead s).sts } := by
  unfold takeHead
  split
  · rfl
  · split
    · rw [takeEntry_frame]; rfl
    · rfl

/-! ## The Painter and the port -/

theorem skipReq_frame (q : PaintReq) (s : State) :
    skipReq q s = { s with win := (skipReq q s).win } := by
  unfold skipReq
  split
  · exact initialDone_frame ..
  · rfl

theorem serveReq_frame (q : PaintReq) (s : State) :
    serveReq q s = { s with pnt := (serveReq q s).pnt, win := (serveReq q s).win } := by
  unfold serveReq
  split
  · rw [skipReq_frame]
  · split
    · rw [skipReq_frame]; rfl
    · unfold paintReq
      split <;> rfl

theorem servePaint_frame (s : State) :
    servePaint s = { s with pnt := (servePaint s).pnt, win := (servePaint s).win } := by
  unfold servePaint
  split
  · rw [serveReq_frame]; rfl
  · rfl
  · rfl

theorem commitBurst_frame (b : PaintBurst) (s : State) :
    commitBurst b s = { s with pnt := (commitBurst b s).pnt, win := (commitBurst b s).win } := by
  have hdone (u : State) : (if b.kind = .initial then initialDone b.index u else u) =
      { u with win := (if b.kind = .initial then initialDone b.index u else u).win } := by
    split
    · exact initialDone_frame b.index u
    · rfl
  unfold commitBurst
  dsimp only
  rw [hdone]
  split <;> split <;> rfl

theorem commitPaint_frame (s : State) :
    commitPaint s = { s with pnt := (commitPaint s).pnt, win := (commitPaint s).win } := by
  unfold commitPaint
  split
  · rfl
  · split
    · dsimp only
      split
      · rfl
      · rw [commitBurst_frame]; rfl
    · rfl

theorem grantNext_frame (s : State) :
    grantNext s = { s with pnt := (grantNext s).pnt, cpl := (grantNext s).cpl } := by
  unfold grantNext
  split
  · rfl
  · rfl
  · split
    · unfold grantCrawl
      split <;> rfl
    · unfold grantByTurn
      split
      · rfl
      · rfl
      · split <;> rfl
      · split
        · unfold grantStatus
          split <;> rfl
        · rfl

theorem tellWritten_frame (b : Requester) (s : State) :
    tellWritten b s = { s with pnt := (tellWritten b s).pnt, win := (tellWritten b s).win } := by
  cases b with
  | crawl => rfl
  | painter => rfl
  | status => rfl
  | compose o a => exact runAfter_frame a s

theorem completeWrite_frame (s : State) :
    completeWrite s =
      { s with
        pnt := (completeWrite s).pnt
        win := (completeWrite s).win
        cpl := (completeWrite s).cpl } := by
  unfold completeWrite
  split
  · rfl
  · rw [tellWritten_frame]; rfl

/-! ## The crawl -/

theorem newCell_frame (s : State) :
    newCell s = { s with crw := (newCell s).crw, sts := (newCell s).sts } := by
  unfold newCell
  split
  · rfl
  · unfold headCell refillIfLow refill
    split <;> split <;> (try split) <;> rfl
  · unfold linkCell
    dsimp only
    split <;> rfl

theorem takeStep_frame (s : State) :
    takeStep s =
      { s with
        crw := (takeStep s).crw, cpl := (takeStep s).cpl, sts := (takeStep s).sts } := by
  unfold takeStep
  split
  · unfold afterStep
    rw [newCell_frame]; rfl
  · rfl

theorem takeHandoff_frame (origin : Station) (b : HandoffBody) (s : State) :
    takeHandoff origin b s =
      { s with crw := (takeHandoff origin b s).crw, sts := (takeHandoff origin b s).sts } := by
  unfold takeHandoff holdHandoff
  split
  · rfl
  · rfl
  · split
    · split <;> rfl
    · rfl

theorem takeCrawlText_frame (b : CrawlTextBody) (s : State) :
    takeCrawlText b s =
      { s with crw := (takeCrawlText b s).crw, sts := (takeCrawlText b s).sts } := by
  unfold takeCrawlText
  split
  · rfl
  · rfl
  · split <;> rfl

theorem flushCrawl_frame (s : State) : flushCrawl s = { s with crw := (flushCrawl s).crw } := by
  unfold flushCrawl
  split <;> rfl

/-! ## The status row -/

theorem rebuildRow_frame (s : State) :
    rebuildRow s = { s with cpl := (rebuildRow s).cpl, sts := (rebuildRow s).sts } := by
  unfold rebuildRow
  split <;> rfl

theorem refreshRow_frame (s : State) :
    refreshRow s = { s with cpl := (refreshRow s).cpl, sts := (refreshRow s).sts } := by
  unfold refreshRow
  split
  · rfl
  · exact rebuildRow_frame s

/-! ## Layout records -/

theorem unbindCompose_frame (i : Nat) (s : State) :
    unbindCompose i s = { s with win := (unbindCompose i s).win } := by
  unfold unbindCompose
  split <;> rfl

theorem unbind_frame (i : Nat) (s : State) :
    unbind i s =
      { s with lay := (unbind i s).lay, pnt := (unbind i s).pnt, win := (unbind i s).win } := by
  unfold unbind
  split
  · rfl
  · rw [unbindCompose_frame]; rfl

theorem bindField_frame (i : Nat) (f : Field) (s : State) :
    bindField i f s =
      { s with lay := (bindField i f s).lay, win := (bindField i f s).win } := by
  unfold bindField
  dsimp only
  split
  · rfl
  · split <;> rfl

theorem changeIndex_frame (s : State) (c : Nat × EntryRead) :
    changeIndex s c =
      { s with
        lay := (changeIndex s c).lay
        pnt := (changeIndex s c).pnt
        win := (changeIndex s c).win } := by
  unfold changeIndex
  split
  · exact unbind_frame ..
  · rw [bindField_frame, unbind_frame]

theorem foldl_changeIndex_frame (run : List (Nat × EntryRead)) (s : State) :
    run.foldl changeIndex s =
      { s with
        lay := (run.foldl changeIndex s).lay
        pnt := (run.foldl changeIndex s).pnt
        win := (run.foldl changeIndex s).win } := by
  induction run generalizing s with
  | nil => rfl
  | cons c run ih => rw [List.foldl_cons, ih, changeIndex_frame]

theorem settleComposes_frame (s : State) :
    settleComposes s = { s with win := (settleComposes s).win } := by
  have h (l : List Nat) (s : State) :
      l.foldl (fun s w => settleCompose w s) s =
        { s with win := (l.foldl (fun s w => settleCompose w s) s).win } := by
    induction l generalizing s with
    | nil => rfl
    | cons w l ih => rw [List.foldl_cons, ih, settleCompose_frame]
  exact h _ s

theorem commitFields_frame (run : List (Nat × EntryRead)) (pointer : Nat) (s : State) :
    commitFields run pointer s =
      { s with
        dir := (commitFields run pointer s).dir
        lay := (commitFields run pointer s).lay
        pnt := (commitFields run pointer s).pnt
        win := (commitFields run pointer s).win
        cpl := (commitFields run pointer s).cpl } := by
  unfold commitFields
  dsimp only
  rw [settleComposes_frame, handOver_frame, settleKeys_frame, State.modLay,
    foldl_changeIndex_frame]

theorem commitLabel_frame (i : Nat) (new : Option LabelRun) (s : State) :
    commitLabel i new s =
      { s with
        lay := { s.lay with labels := writeRunAt i new s.lay.labels }
        pnt := (commitLabel i new s).pnt
        win := (commitLabel i new s).win
        cpl := (commitLabel i new s).cpl } := by
  unfold commitLabel
  dsimp only
  rw [handOver_frame]; rfl

theorem endWindow_frame (w : Nat) (s : State) :
    endWindow w s =
      { s with
        pnt := (endWindow w s).pnt
        win := (endWindow w s).win
        cpl := (endWindow w s).cpl } := by
  unfold endWindow
  dsimp only
  split
  · rfl
  · rw [handOver_frame, endPage_frame]; rfl

theorem openWindow_frame (w : Nat) (r : WindowRecord) (page : Option Nat) (s : State) :
    openWindow w r page s =
      { s with
        pnt := (openWindow w r page s).pnt
        win := (openWindow w r page s).win
        cpl := (openWindow w r page s).cpl } := by
  unfold openWindow
  dsimp only
  split
  · rfl
  · split
    · rfl
    · rw [beginCompose_frame]; rfl

/-! ## The commands of the Window controller -/

theorem showTaken_frame (w p : Nat) (s : State) :
    showTaken w p s =
      { s with
        pnt := (showTaken w p s).pnt
        win := (showTaken w p s).win
        cpl := (showTaken w p s).cpl } := by
  unfold showTaken
  dsimp only
  split
  · rfl
  · rw [beginCompose_frame]; rfl

theorem takeShow_frame (n : Station) (window page : Byte) (s : State) :
    takeShow n window page s =
      { s with
        pnt := (takeShow n window page s).pnt
        win := (takeShow n window page s).win
        cpl := (takeShow n window page s).cpl
        sts := (takeShow n window page s).sts } := by
  unfold takeShow
  split
  · split
    · rfl
    · split
      · rfl
      · rw [showTaken_frame]
  · rfl
  · rfl

theorem takeRelease_frame (w : Nat) (s : State) :
    takeRelease w s =
      { s with
        pnt := (takeRelease w s).pnt
        win := (takeRelease w s).win
        cpl := (takeRelease w s).cpl
        sts := (takeRelease w s).sts } := by
  unfold takeRelease
  split
  · rw [resumeStep_frame]; rfl
  · rfl

theorem takeRun_frame (n : Station) (w : Nat) (s : State) :
    takeRun n w s =
      { s with
        pnt := (takeRun n w s).pnt
        win := (takeRun n w s).win
        cpl := (takeRun n w s).cpl
        sts := (takeRun n w s).sts } := by
  unfold takeRun
  split
  · rfl
  · split
    · split
      · rfl
      · rw [selectStep_frame]; rfl
    · rfl

theorem unfreeze_frame (w : Nat) (s : State) :
    unfreeze w s = { s with pnt := (unfreeze w s).pnt, win := (unfreeze w s).win } := by
  unfold unfreeze
  dsimp only
  split <;> rfl

theorem takeThaw_frame (w : Nat) (s : State) :
    takeThaw w s =
      { s with
        pnt := (takeThaw w s).pnt
        win := (takeThaw w s).win
        cpl := (takeThaw w s).cpl
        sts := (takeThaw w s).sts } := by
  unfold takeThaw
  split
  · split
    · rw [advance_frame, unfreeze_frame]
    · rw [unfreeze_frame]
  · rfl
  · rfl
  · rfl

theorem takeOverride_frame (m : OverrideMode) (w : Nat) (s : State) :
    takeOverride m w s =
      { s with pnt := (takeOverride m w s).pnt, win := (takeOverride m w s).win } := by
  unfold takeOverride
  dsimp only
  split <;> rfl

theorem takeDwellExpiry_frame (w : Nat) (s : State) :
    takeDwellExpiry w s =
      { s with
        pnt := (takeDwellExpiry w s).pnt
        win := (takeDwellExpiry w s).win
        cpl := (takeDwellExpiry w s).cpl
        sts := (takeDwellExpiry w s).sts } := by
  unfold takeDwellExpiry
  split
  · rw [expireDwell_frame]; rfl
  · rfl

/-! ## Layout records with their tests -/

theorem takeField_frame (n : Station) (r : FieldRecord) (s : State) :
    takeField n r s =
      { s with
        dir := (takeField n r s).dir
        lay := (takeField n r s).lay
        pnt := (takeField n r s).pnt
        win := (takeField n r s).win
        cpl := (takeField n r s).cpl
        sts := (takeField n r s).sts } := by
  unfold takeField
  split
  · rfl
  · dsimp only
    split
    · rfl
    · split
      · rfl
      · split
        · rfl
        · rw [commitFields_frame]

theorem takeLabel_frame (n : Station) (r : LabelRecord) (s : State) :
    takeLabel n r s =
      { s with
        lay := { s.lay with labels := (takeLabel n r s).lay.labels }
        pnt := (takeLabel n r s).pnt
        win := (takeLabel n r s).win
        cpl := (takeLabel n r s).cpl
        sts := (takeLabel n r s).sts } := by
  unfold takeLabel
  split
  · rfl
  · split
    · rfl
    · rw [commitLabel_frame]

theorem takeWindow_frame (n : Station) (r : WindowRecord) (s : State) :
    takeWindow n r s =
      { s with
        pnt := (takeWindow n r s).pnt
        win := (takeWindow n r s).win
        cpl := (takeWindow n r s).cpl
        sts := (takeWindow n r s).sts } := by
  unfold takeWindow
  split
  · rfl
  · split
    · rw [endWindow_frame]
    · split
      · rfl
      · rw [openWindow_frame, endWindow_frame]

theorem takeProg_frame (n : Station) (r : CrawlProgRecord) (s : State) :
    takeProg n r s =
      { s with
        dir := (takeProg n r s).dir
        lay := { s.lay with prog := (takeProg n r s).lay.prog }
        sts := (takeProg n r s).sts } := by
  unfold takeProg
  split
  · rfl
  · dsimp only
    split
    · rfl
    · rw [settleKeys_frame]; rfl

theorem offerStatus_frame (s : State) : offerStatus s = { s with lnk := (offerStatus s).lnk } := by
  unfold offerStatus
  split <;> rfl

end Sys2Proof.Machine

/-! PROOFS. What every command keeps. A property of states that each block's own effect keeps is kept
by every command and by every step: the clock, receive filtering and the layout-origin checks are dealt
with here once. -/

namespace Sys2Proof.Machine

/-- Each block's own effect keeps a property of states. -/
structure Kept (P : State → Prop) : Prop where
  /-- LNK keeps its transmit queue or takes the head off it. -/
  link : ∀ (s : State) (f : Lnk → Lnk),
    ((f s.lnk).txq = s.lnk.txq ∨ (f s.lnk).txq = s.lnk.txq.tail) → P s → P (s.modLnk f)
  counts : ∀ (s : State) (f : Sts → Sts), P s → P (s.modSts f)
  origin : ∀ (s : State) (o : Option Station), P s → P (s.modPtb fun p => { p with origin := o })
  /-- The port's requests, the turn and the display. -/
  port : ∀ (s : State) (f : Cpl → Cpl),
    (f s.cpl).plane = s.cpl.plane → (f s.cpl).bursts = s.cpl.bursts →
    (f s.cpl).granted = s.cpl.granted → P s → P (s.modCpl f)
  /-- The small tables of the Layout store. -/
  tables : ∀ (s : State) (f : Lay → Lay),
    (f s.lay).fields = s.lay.fields → (f s.lay).labels = s.lay.labels →
    (f s.lay).prog = s.lay.prog → (f s.lay).pointer = s.lay.pointer → P s → P (s.modLay f)
  reset : ∀ (s : State) (held : Bool), P s → P { s with resetHeld := held }
  released : ∀ (s : State) (straps : Straps) (low : Bool),
    P s → P (State.released straps low s.pending)
  sweep : ∀ (m : MarkClass) (s : State), P s → P (sweepStart m s)
  deadlines : ∀ s : State, P s → P (runRefreshPass true s)
  status : ∀ s : State, P s → P (offerStatus s)
  report : ∀ (n : Station) (s : State), P s → P (reportStation n s)
  presence : ∀ (n : Station) (k : PeerKind) (s : State), P s → P (takePresence n k s)
  mark : ∀ (n : Station) (m : Option Key) (s : State), P s → P (setMark n m s)
  tick : ∀ (n : Station) (b : TickBody) (s : State), P s → P (takeTick n b s)
  apply : ∀ s : State, P s → P (takeHead s)
  stale : ∀ s : State, P s →
    P (s.modDir fun d => { d with records := Tab.mapValues (fun _ r => expireStale s.now r) d.records })
  show_ : ∀ (n : Station) (window page : Byte) (s : State), P s → P (takeShow n window page s)
  release : ∀ (w : Nat) (s : State), w < 8 → P s → P (takeRelease w s)
  run : ∀ (n : Station) (w : Nat) (s : State), w < 8 → P s → P (takeRun n w s)
  halt : ∀ (w : Nat) (s : State), w < 8 → P s → P (takeHalt w s)
  freeze : ∀ (w : Nat) (s : State), w < 8 → P s → P (takeFreeze w s)
  thaw : ∀ (w : Nat) (s : State), w < 8 → P s → P (takeThaw w s)
  override : ∀ (m : OverrideMode) (w : Nat) (s : State), w < 8 → P s → P (takeOverride m w s)
  dwell : ∀ (w : Nat) (s : State), w < 8 → P s → P (takeDwellExpiry w s)
  clear : ∀ s : State, P s → P (clearLayout s)
  field : ∀ (n : Station) (r : FieldRecord) (s : State), P s → P (takeField n r s)
  label : ∀ (n : Station) (r : LabelRecord) (s : State), P s → P (takeLabel n r s)
  window : ∀ (n : Station) (r : WindowRecord) (s : State), P s → P (takeWindow n r s)
  prog : ∀ (n : Station) (r : CrawlProgRecord) (s : State), P s → P (takeProg n r s)
  limit : ∀ (limit : Nat) (s : State), P s → P (s.modDir (limitDeadlines limit))
  handoff : ∀ (n : Station) (b : HandoffBody) (s : State), P s → P (takeHandoff n b s)
  crawlText : ∀ (b : CrawlTextBody) (s : State), P s → P (takeCrawlText b s)
  flush : ∀ s : State, P s → P (flushCrawl s)
  crawl : ∀ s : State, P s → P (takeStep s)
  paint : ∀ s : State, P s → P (servePaint s)
  commit : ∀ s : State, P s → P (commitPaint s)
  pending : ∀ s : State, P s → P (releasePending s)
  highlights : ∀ s : State, P s → P (expireHighlights s)
  grant : ∀ s : State, P s → P (grantNext s)
  transfer : ∀ s : State, P s → P (completeWrite s)

variable {P : State → Prop}

/-! ## Filtering and checks -/

theorem running_keeps {f : State → State} {s t : State} (hf : P s → P (f s)) (hs : P s)
    (h : running f s = .next t) : P t := by
  rw [(running_eq f s t).mp h]
  split
  · exact hs
  · exact hf hs

/-- A change of LNK that leaves the transmit queue. -/
theorem Kept.clock (h : Kept P) {s : State} {f : Lnk → Lnk} (hf : ∀ l, (f l).txq = l.txq)
    (hs : P s) : P (s.modLnk f) := h.link s f (.inl (hf _)) hs

/-- A command that changes LNK alone, and not its transmit queue. -/
theorem Kept.onLink (h : Kept P) {g : State → Lnk → Lnk} {s t : State} (hs : P s)
    (he : running (fun s => s.modLnk (g s)) s = .next t) (hg : ∀ s l, (g s l).txq = l.txq) : P t :=
  running_keeps (h.clock (hg s)) hs he

theorem hear_txq (rx : Rx) (l : Lnk) : (hear rx l).txq = l.txq := by
  unfold hear
  split <;> rfl

theorem Kept.receive (h : Kept P) {act : State → State} (hact : ∀ s, P s → P (act s)) (rx : Rx)
    (targeted : Bool) {s : State} (hs : P s) : P (receive rx targeted act s) := by
  have hclock : P (s.modLnk (advanceTo (parcelEnd rx.slot.toNat))) := h.clock (by simp) hs
  have harrived : P ((s.modLnk (advanceTo (parcelEnd rx.slot.toNat))).modLnk (hear rx)).countGood :=
    h.counts _ _ (h.clock (hear_txq rx) hclock)
  unfold Machine.receive
  dsimp only
  split
  · exact hs
  · split
    · exact h.counts _ _ hclock
    · split
      · exact h.counts _ _ hclock
      · split
        · exact harrived
        · exact hact _ harrived

theorem Kept.refuse (h : Kept P) (kind code : Nibble) (r : Reason) (n : Station) {s : State}
    (hs : P s) : P (s.refuse kind code r n) := h.counts _ _ hs

theorem Kept.layoutParcel (h : Kept P) {act : State → State} (hact : ∀ s, P s → P (act s)) (rx : Rx)
    (kind : Nibble) {s : State} (hs : P s) : P (layoutParcel rx kind act s) := by
  refine h.receive (fun u hu => ?_) rx true hs
  unfold layoutCheck
  split
  · exact hact _ (h.origin _ _ hu)
  · split
    · exact hact _ hu
    · exact h.refuse _ _ _ _ hu

theorem Kept.commandParcel (h : Kept P) {act : State → State} (hact : ∀ s, P s → P (act s))
    (rx : Rx) (code : Nibble) {s : State} (hs : P s) : P (commandParcel rx code act s) := by
  refine h.receive (fun u hu => ?_) rx true hs
  unfold commandCheck
  split
  · exact hact _ hu
  · split
    · exact hact _ hu
    · exact h.refuse _ _ _ _ hu

theorem readWindow_eq_some {b : Byte} {w : Nat} (h : readWindow b = some w) : w = b.toNat ∧ w < 8 := by
  unfold readWindow readBelow at h
  split at h
  · obtain rfl := Option.some.inj h
    exact ⟨rfl, ‹_›⟩
  · cases h

theorem Kept.onWindow (h : Kept P) {act : Nat → State → State}
    (hact : ∀ w s, w < 8 → P s → P (act w s)) (rx : Rx) (code : Nibble) (window : Byte) (s : State)
    (hs : P s) : P (onWindow rx code window act s) := by
  unfold Machine.onWindow
  split
  · exact h.refuse _ _ _ _ hs
  · next w hw =>
    exact hact w s (readWindow_eq_some hw).2 hs

theorem Kept.discardParcel (h : Kept P) {count : State → State} (hc : ∀ s, P s → P (count s))
    (slot : Slot) {s : State} (hs : P s) : P (discardParcel slot count s) := by
  unfold Machine.discardParcel
  split
  · exact hc _ (h.clock (by simp) hs)
  · exact hs

/-! ## LNK -/

theorem recogniseMark_txq (edge : Nat) (l : Lnk) : (recogniseMark edge l).txq = l.txq := by
  unfold recogniseMark
  split
  · simp [beginMark, restartTimer, cutHeard]
  · rfl

theorem endMark_txq (low : Nat) (l : Lnk) : (endMark low l).txq = l.txq := by simp [endMark]

theorem followExpiry_txq (muted : Bool) (l : Lnk) : (followExpiry muted l).txq = l.txq := by
  unfold followExpiry
  split <;> rfl

theorem endListen_txq (muted : Bool) (l : Lnk) : (endListen muted l).txq = l.txq := by
  unfold endListen
  split
  · simp [followExpiry_txq]
  · rfl

theorem expireTimer_txq (muted : Bool) (l : Lnk) : (expireTimer muted l).txq = l.txq := by
  unfold expireTimer
  split
  · simp [followExpiry_txq]
  · rfl

theorem riseLine_txq (edge : Nat) (l : Lnk) : (riseLine edge l).txq = l.txq := by
  unfold riseLine
  split <;> simp

theorem fallUnrecognised_txq (edge : Nat) (l : Lnk) : (fallUnrecognised edge l).txq = l.txq := by
  unfold fallUnrecognised
  split <;> simp

theorem slotEnded_txq (n : Station) (l : Lnk) : (slotEnded n l).txq = l.txq := by
  unfold slotEnded
  split <;> simp

theorem driveParcel_txq (x : Tx) (l : Lnk) : (driveParcel x l).txq = l.txq := by
  simp [driveParcel_eq]

theorem tickLink_txq (l : Lnk) : (tickLink l).txq = l.txq := by
  unfold tickLink
  split <;> simp

theorem Kept.classifyMark (h : Kept P) (low : Nat) {s : State} (hs : P s) :
    P (classifyMark low s) := by
  unfold Machine.classifyMark
  split
  · exact hs
  · split
    · exact h.sweep _ _ (h.clock (endMark_txq low) hs)
    · exact hs

theorem Kept.takeStuck (h : Kept P) {s : State} (hs : P s) : P (takeStuck s) := by
  have hraise : P (raiseSync s) := by
    unfold raiseSync
    split
    · exact hs
    · exact h.counts _ _ hs
  unfold Machine.takeStuck
  split
  · exact h.clock (by simp [enterStuck]) hraise
  · split
    · exact h.clock (by simp [enterStuck, restartTimer]) hraise
    · exact hs

theorem Kept.takeFreeRun (h : Kept P) {s : State} (hs : P s) : P (takeFreeRun s) := by
  unfold Machine.takeFreeRun
  split
  · exact h.sweep _ _ (h.clock (by simp [endFreeSlot]) hs)
  · exact hs

theorem Kept.takeStuckTimer (h : Kept P) {s : State} (hs : P s) : P (takeStuckTimer s) := by
  unfold Machine.takeStuckTimer
  split
  · dsimp only
    split
    · exact h.link _ _ (.inl (by simp)) hs
    · exact h.sweep _ _ (h.link _ _ (.inl (by simp [restartTimer])) hs)
  · exact hs

theorem Kept.sendHome (h : Kept P) {s : State} (hs : P s) : P (sendHome s) := by
  unfold Machine.sendHome
  split
  · exact h.clock (driveParcel_txq _) hs
  · exact hs

theorem Kept.clashHome (h : Kept P) {s : State} (hs : P s) : P (clashHome s) := by
  unfold Machine.clashHome
  split
  · exact h.counts _ _ (h.clock (fun _ => rfl) hs)
  · exact hs

theorem Kept.attemptOpen (h : Kept P) (slot : Nat) {s : State} (hs : P s) :
    P (attemptOpen slot s) := by
  unfold Machine.attemptOpen
  split
  · exact hs
  · split
    · exact h.clock (driveParcel_txq _) hs
    · exact hs

theorem Kept.endOpen (h : Kept P) (mismatch : Option Byte) {s : State} (hs : P s) :
    P (endOpen mismatch s) := by
  unfold Machine.endOpen
  split
  · exact hs
  · split
    · exact hs
    · unfold openOutcome
      have hrel : P (releaseDld s) := h.clock (fun _ => rfl) hs
      split
      · exact h.link _ _ (.inr (by simp [sentOpen])) hs
      · split
        · exact hrel
        · exact h.counts _ _ (h.link _ _ (.inr rfl) hrel)

/-! ## STS and CPL -/

theorem Kept.rebuildRow (h : Kept P) {s : State} (hs : P s) : P (rebuildRow s) := by
  unfold Machine.rebuildRow
  split
  · exact h.port _ _ rfl rfl rfl (h.counts _ _ hs)
  · exact hs

theorem Kept.refreshRow (h : Kept P) {s : State} (hs : P s) : P (refreshRow s) := by
  unfold Machine.refreshRow
  split
  · exact hs
  · exact h.rebuildRow hs

theorem Kept.takeLapStart (h : Kept P) {s : State} (hs : P s) : P (takeLapStart s) := by
  unfold Machine.takeLapStart
  split
  · exact h.rebuildRow (h.status _ (h.counts _ _ hs))
  · exact hs

theorem Kept.requestRow (h : Kept P) {s : State} (hs : P s) : P (requestRow s) := by
  unfold Machine.requestRow
  split
  · split <;> exact h.port _ _ rfl rfl rfl hs
  · exact hs

/-! ## LAY -/

theorem Kept.takePolicy (h : Kept P) (n : Station) (r : PolicyRecord) (s : State) (hs : P s) :
    P (takePolicy n r s) := by
  unfold Machine.takePolicy
  split
  · exact h.refuse _ _ _ _ hs
  · exact h.tables _ _ rfl rfl rfl rfl hs

theorem Kept.takePalette (h : Kept P) (n : Station) (r : PaletteRecord) (s : State) (hs : P s) :
    P (takePalette n r s) := by
  unfold Machine.takePalette
  split
  · exact h.refuse _ _ _ _ hs
  · exact h.tables _ _ rfl rfl rfl rfl hs

theorem Kept.takeCondLabel (h : Kept P) (n : Station) (r : CondLabelRecord) (s : State) (hs : P s) :
    P (takeCondLabel n r s) := by
  unfold Machine.takeCondLabel
  split
  · exact h.refuse _ _ _ _ hs
  · exact h.tables _ _ rfl rfl rfl rfl hs

theorem Kept.takeCarousel (h : Kept P) (n : Station) (r : CarouselRecord) (s : State) (hs : P s) :
    P (takeCarousel n r s) := by
  unfold Machine.takeCarousel
  split
  · exact h.refuse _ _ _ _ hs
  · exact h.tables _ _ rfl rfl rfl rfl hs

theorem Kept.takeGlobal (h : Kept P) (r : GlobalRecord) (s : State) (hs : P s) :
    P (takeGlobal r s) :=
  h.refreshRow (h.limit _ _ (h.tables _ _ rfl rfl rfl rfl hs))

theorem Kept.overrideParcel (h : Kept P) (rx : Rx) (window mode : Byte) (s : State) (hs : P s) :
    P (Machine.onWindow rx 7 window (fun w s =>
      match readOverride mode with
      | none => refuseCommand 7 .range rx.origin s
      | some m => takeOverride m w s) s) := by
  refine h.onWindow (fun w u hw hu => ?_) rx 7 window s hs
  split
  · exact h.refuse _ _ _ _ hu
  · exact h.override _ _ _ hw hu

/-! ## Every command and every step -/

/-- Every command keeps what each block's own effect keeps. -/
theorem Kept.exec (h : Kept P) {c : Instr} {s t : State} (hs : P s) (he : exec c s = .next t) :
    P t := by
  cases c with
  | resetnAssert =>
    obtain rfl := Host.Outcome.next.inj he
    exact h.reset (s.modLnk fun l => { l with dls := none, dld := none }) true
      (h.clock (fun _ => rfl) hs)
  | resetnRelease straps low =>
    obtain rfl := Host.Outcome.next.inj he
    split
    · exact h.released _ _ _ hs
    · exact hs
  | listenPeriodExpiry => exact h.onLink (g := fun s => endListen (mute s.straps)) hs he fun _ => endListen_txq _
  | sweepMarkRecognised edge => exact h.onLink (g := fun _ => recogniseMark edge) hs he fun _ => recogniseMark_txq _
  | markClassified low => exact running_keeps (h.classifyMark low) hs he
  | stuckLine => exact running_keeps h.takeStuck hs he
  | sweepTimerExpiry => exact h.onLink (g := fun s => expireTimer (mute s.straps)) hs he fun _ => expireTimer_txq _
  | freeRunExpiry => exact running_keeps h.takeFreeRun hs he
  | stuckTimerExpiry => exact running_keeps h.takeStuckTimer hs he
  | lapListenEnd => exact h.onLink (g := fun _ => endLapListen) hs he fun _ _ => rfl
  | homeSlotTransmit => exact running_keeps h.sendHome hs he
  | homeSlotClash => exact running_keeps h.clashHome hs he
  | openSlotAttempt slot => exact running_keeps (h.attemptOpen _) hs he
  | openSlotOutcome mismatch => exact running_keeps (h.endOpen mismatch) hs he
  | homeSlotReport n =>
    refine running_keeps (fun hs => ?_) hs he
    split
    · exact h.report n _ (h.clock (slotEnded_txq n) hs)
    · exact hs
  | crcError slot => exact running_keeps (h.discardParcel (fun _ => h.counts _ _) slot) hs he
  | malformedParcel slot => exact running_keeps (h.discardParcel (fun _ => h.counts _ _) slot) hs he
  | goodParcelIgnored rx kind => exact running_keeps (h.receive (fun _ => id) rx _) hs he
  | presence rx b => exact running_keeps (h.receive (h.presence _ _) rx _) hs he
  | mark rx sub key => exact running_keeps (h.receive (h.mark _ _) rx _) hs he
  | tick rx b => exact running_keeps (h.receive (h.tick _ _) rx _) hs he
  | intakeTake => exact running_keeps (h.apply s) hs he
  | commandBadCode rx code =>
    exact running_keeps (h.commandParcel (fun _ => h.refuse _ _ _ _) rx _) hs he
  | showPage rx window page =>
    exact running_keeps (h.commandParcel (h.show_ _ _ _) rx _) hs he
  | release rx window =>
    exact running_keeps (h.commandParcel (h.onWindow h.release rx _ window) rx _) hs he
  | run rx window =>
    exact running_keeps (h.commandParcel (h.onWindow (h.run _) rx _ window) rx _) hs he
  | halt rx window =>
    exact running_keeps (h.commandParcel (h.onWindow h.halt rx _ window) rx _) hs he
  | freeze rx window =>
    exact running_keeps (h.commandParcel (h.onWindow h.freeze rx _ window) rx _) hs he
  | thaw rx window =>
    exact running_keeps (h.commandParcel (h.onWindow h.thaw rx _ window) rx _) hs he
  | override rx window mode =>
    exact running_keeps (h.commandParcel (h.overrideParcel rx window mode) rx _) hs he
  | crawlFlush rx => exact running_keeps (h.commandParcel h.flush rx _) hs he
  | counterClear rx =>
    exact running_keeps (h.commandParcel (fun _ hu => h.refreshRow (h.counts _ _ hu)) rx _) hs he
  | layoutClear rx => exact running_keeps (h.commandParcel h.clear rx _) hs he
  | layoutBadKind rx kind =>
    exact running_keeps (h.layoutParcel (fun _ => h.refuse _ _ _ _) rx _) hs he
  | field rx r => exact running_keeps (h.layoutParcel (h.field _ r) rx _) hs he
  | label rx r => exact running_keeps (h.layoutParcel (h.label _ r) rx _) hs he
  | window rx r => exact running_keeps (h.layoutParcel (h.window _ r) rx _) hs he
  | policy rx r => exact running_keeps (h.layoutParcel (h.takePolicy _ r) rx _) hs he
  | palette rx r => exact running_keeps (h.layoutParcel (h.takePalette _ r) rx _) hs he
  | condlabel rx r => exact running_keeps (h.layoutParcel (h.takeCondLabel _ r) rx _) hs he
  | carousel rx r => exact running_keeps (h.layoutParcel (h.takeCarousel _ r) rx _) hs he
  | crawlprog rx r => exact running_keeps (h.layoutParcel (h.prog _ r) rx _) hs he
  | global rx r => exact running_keeps (h.layoutParcel (h.takeGlobal r) rx _) hs he
  | handoff rx b => exact running_keeps (h.receive (h.handoff _ b) rx _) hs he
  | crawltext rx b => exact running_keeps (h.receive (h.crawlText b) rx _) hs he
  | crawlStep => exact running_keeps (h.crawl s) hs he
  | staleExpiry =>
    exact running_keeps (f := fun s => s.modDir fun d =>
      { d with records := Tab.mapValues (fun _ r => expireStale s.now r) d.records }) (h.stale s) hs he
  | refreshDeadline => exact running_keeps (h.deadlines s) hs he
  | pendingRelease => exact running_keeps (h.pending s) hs he
  | highlightExpiry => exact running_keeps (h.highlights s) hs he
  | dwellExpiry w => exact running_keeps (h.dwell w.toNat s w.isLt) hs he
  | lapStart => exact running_keeps h.takeLapStart hs he
  | paintService => exact running_keeps (h.paint s) hs he
  | paintCommit => exact running_keeps (h.commit s) hs he
  | portGrant => exact running_keeps (h.grant s) hs he
  | transferComplete => exact running_keeps (h.transfer s) hs he
  | frameStart => exact running_keeps (h.port s _ rfl rfl rfl) hs he
  | rowFetch => exact running_keeps h.requestRow hs he
  | stuckLineRisingEdge edge => exact h.onLink (g := fun _ => riseLine edge) hs he fun _ => riseLine_txq _
  | unrecognisedFallingEdge edge => exact h.onLink (g := fun _ => fallUnrecognised edge) hs he fun _ => fallUnrecognised_txq _

/-- Every step keeps what each block's own effect keeps, where the commands that wait do not matter. -/
theorem Kept.step (h : Kept P) (hq : ∀ (s : State) (q : List Instr), P s → P { s with pending := q })
    {s t : State} (hs : P s) (he : step s = .next t) : P t := by
  unfold Machine.step at he
  split at he
  · obtain rfl := Host.Outcome.next.inj he
    unfold idle
    split
    · exact hs
    · exact h.clock tickLink_txq hs
  · exact h.exec (hq _ _ hs) he

/-! ## Completion -/

/-- Every command completes: none ends in a fault or a refusal. -/
theorem exec_completes (c : Instr) (s : State) : ∃ t, exec c s = .next t := by
  cases c <;> exact ⟨_, rfl⟩

end Sys2Proof.Machine

/-! PROOFS. Reading tables and windows: what is listed in a canonical table, which window shows a page,
and when a page is shown elsewhere. -/

namespace Sys2Proof.Machine

/-! ## Tables -/

section tables

variable {α : Type}

theorem Tab.look_of_mem {k : Nat} {v : α} {t : Tab α} (hr : Tab.rising t = true) (h : (k, v) ∈ t) :
    Tab.look k t = some v := by
  induction t with
  | nil => simp at h
  | cons e t ih =>
    obtain ⟨i, w⟩ := e
    obtain ⟨habove, hrest⟩ := (Tab.rising_cons i w t).mp hr
    obtain h | h := List.mem_cons.mp h
    · cases h
      simp [Tab.look]
    · have : i ≠ k := (habove _ h).ne
      simp [Tab.look, this, ih hrest h]

theorem Tab.look_eq_some_iff {k : Nat} {v : α} {t : Tab α} (hr : Tab.rising t = true) :
    Tab.look k t = some v ↔ (k, v) ∈ t := ⟨Tab.mem_of_look, Tab.look_of_mem hr⟩

theorem Tab.get_of_mem (d : α) {k : Nat} {v : α} {t : Tab α} (hr : Tab.rising t = true)
    (h : (k, v) ∈ t) : Tab.get d k t = v := by simp [Tab.get, Tab.look_of_mem hr h]

theorem Tab.mem_of_get {d : α} {k : Nat} {t : Tab α} (h : Tab.get d k t ≠ d) :
    (k, Tab.get d k t) ∈ t := by
  unfold Tab.get at h ⊢
  cases hl : Tab.look k t with
  | none => simp [hl] at h
  | some v => exact Tab.mem_of_look hl

theorem Tab.look_mapValues {β : Type} (f : Nat → α → β) (k : Nat) (t : Tab α) :
    Tab.look k (Tab.mapValues f t) = (Tab.look k t).map (f k) := by
  induction t with
  | nil => rfl
  | cons e t ih =>
    obtain ⟨i, v⟩ := e
    by_cases h : i = k
    · simp [Tab.mapValues, Tab.look, h]
    · simp [Tab.mapValues, Tab.look, h, ih]

theorem Tab.mem_mapValues {β : Type} {f : Nat → α → β} {e : Nat × β} {t : Tab α} :
    e ∈ Tab.mapValues f t ↔ ∃ v, (e.1, v) ∈ t ∧ e.2 = f e.1 v := by
  induction t with
  | nil => simp [Tab.mapValues]
  | cons x t ih =>
    obtain ⟨i, v⟩ := x
    obtain ⟨k, b⟩ := e
    simp only [Tab.mapValues, List.mem_cons, Prod.mk.injEq, ih]
    constructor
    · rintro (⟨rfl, rfl⟩ | ⟨v', hv, rfl⟩)
      · exact ⟨v, .inl ⟨rfl, rfl⟩, rfl⟩
      · exact ⟨v', .inr hv, rfl⟩
    · rintro ⟨v', ⟨rfl, rfl⟩ | hv, rfl⟩
      · exact .inl ⟨rfl, rfl⟩
      · exact .inr ⟨v', hv, rfl⟩

/-- A table rewritten value by value reads as rewritten, where the default stays the default. -/
theorem Tab.get_mapPut [DecidableEq α] {d : α} {f : α → α} (hd : f d = d) (k : Nat) {t : Tab α}
    (hr : Tab.rising t = true) : Tab.get d k (Tab.mapPut d f t) = f (Tab.get d k t) := by
  have hr' : Tab.rising (Tab.mapPut d f t) = true :=
    Tab.rising_filter _ (Tab.rising_mapValues _ hr)
  have hmem (v : α) : (k, v) ∈ Tab.mapPut d f t ↔ (∃ u, Tab.look k t = some u ∧ v = f u) ∧ v ≠ d := by
    simp [Tab.mapPut, Tab.mem_mapValues, Tab.look_eq_some_iff hr]
  unfold Tab.get
  cases hl : Tab.look k (Tab.mapPut d f t) with
  | some v =>
    obtain ⟨⟨u, hu, rfl⟩, -⟩ := (hmem v).mp (Tab.mem_of_look hl)
    simp [hu]
  | none =>
    cases hu : Tab.look k t with
    | none => simp [hd]
    | some u =>
      by_cases hfu : f u = d
      · simp [hfu]
      · have := Tab.look_of_mem hr' ((hmem (f u)).mpr ⟨⟨u, hu, rfl⟩, hfu⟩)
        simp [this] at hl

theorem Tab.wf_mapPut [DecidableEq α] (d : α) (f : α → α) {t : Tab α} (h : Tab.wf d t = true) :
    Tab.wf d (Tab.mapPut d f t) = true := by
  rw [Tab.wf_iff] at h ⊢
  refine ⟨Tab.rising_filter _ (Tab.rising_mapValues _ h.1), fun e he => ?_⟩
  simpa using (List.mem_filter.mp he).2

end tables

/-! ## Windows -/

theorem State.mem_win_of_shows {s : State} {w p : Nat} (h : s.shows w p) :
    (w, s.window w) ∈ s.win := by
  refine Tab.mem_of_get fun hd => h.1 ?_
  rw [State.window, hd]
  rfl

theorem State.window_of_mem {s : State} (hr : Tab.rising s.win = true) {e : Nat × Window}
    (h : e ∈ s.win) : s.window e.1 = e.2 := Tab.get_of_mem _ hr h

theorem State.shownElsewhere_iff {s : State} (hr : Tab.rising s.win = true) (p w : Nat) :
    s.shownElsewhere p w = true ↔ ∃ u, u ≠ w ∧ s.shows u p := by
  unfold State.shownElsewhere
  simp only [List.any_eq_true, Bool.and_eq_true, decide_eq_true_eq]
  constructor
  · rintro ⟨e, he, ⟨hw, hstate⟩, hp⟩
    refine ⟨e.1, hw, ?_⟩
    rw [State.shows, State.window_of_mem hr he]
    exact ⟨hstate, hp⟩
  · rintro ⟨u, hu, h⟩
    exact ⟨_, State.mem_win_of_shows h, ⟨hu, h.1⟩, h.2⟩

theorem State.showing_eq_none_iff {s : State} (hr : Tab.rising s.win = true) (p : Nat) :
    s.showing p = none ↔ ∀ w, ¬ s.shows w p := by
  unfold State.showing
  simp only [List.find?_eq_none, Bool.and_eq_true, decide_eq_true_eq]
  constructor
  · intro h w hw
    exact h _ (State.mem_win_of_shows hw) ⟨hw.1, hw.2⟩
  · rintro h e he ⟨hstate, hp⟩
    refine h e.1 ?_
    rw [State.shows, State.window_of_mem hr he]
    exact ⟨hstate, hp⟩

theorem State.showing_eq_some {s : State} (hr : Tab.rising s.win = true) {p w : Nat} {v : Window}
    (h : s.showing p = some (w, v)) : s.shows w p ∧ v = s.window w ∧ (w, v) ∈ s.win := by
  have hmem := List.mem_of_find?_eq_some h
  have hp := List.find?_some h
  have hv := State.window_of_mem hr hmem
  simp only [Bool.and_eq_true, decide_eq_true_eq] at hp
  refine ⟨?_, hv.symm, hmem⟩
  rw [State.shows, hv]
  exact hp

/-- With no page in two windows, the window that shows a page is the one found. -/
theorem State.showing_of_shows {s : State} (hr : Tab.rising s.win = true)
    (ho : s.onePagePerWindow) {p w : Nat} (h : s.shows w p) :
    s.showing p = some (w, s.window w) := by
  cases hs : s.showing p with
  | none => exact absurd h ((State.showing_eq_none_iff hr p).mp hs w)
  | some e =>
    obtain ⟨u, v⟩ := e
    obtain ⟨hu, rfl, -⟩ := State.showing_eq_some hr hs
    rw [ho u w p hu h]

theorem agrees_resetWindow : resetWindow.agrees := by simp [Window.agrees, resetWindow]

theorem State.windowsAgree.rising {s : State} (h : s.windowsAgree) : Tab.rising s.win = true :=
  ((Tab.wf_iff _ _).mp h.1).1

theorem State.windowsAgree.agrees {s : State} (h : s.windowsAgree) (w : Nat) :
    (s.window w).agrees := by
  by_cases hd : s.window w = resetWindow
  · rw [hd]
    exact agrees_resetWindow
  · exact h.2.2 _ (Tab.mem_of_get hd)

theorem State.windowsAgree.lt_of_page {s : State} (h : s.windowsAgree) {w p : Nat}
    (hp : (s.window w).page = some p) : w < 8 := by
  by_contra hw
  rw [State.window_of_windowsAgree h (by omega)] at hp
  cases hp

theorem State.windowsAgree.shows_iff {s : State} (h : s.windowsAgree) {w p : Nat} :
    s.shows w p ↔ (s.window w).page = some p := by
  refine ⟨fun hs => hs.2, fun hp => ⟨fun he => ?_, hp⟩⟩
  rw [(h.agrees w).1.mpr he] at hp
  cases hp

theorem State.composingOf_eq_some {s : State} {i w : Nat} (h : s.composingOf i = some w) :
    ∃ v, (w, v) ∈ s.win ∧ v.compose.any (Compose.holds i) = true := by
  obtain ⟨e, he, rfl⟩ := Option.map_eq_some_iff.mp h
  exact ⟨e.2, List.mem_of_find?_eq_some he,
    List.find?_some (p := fun e : Nat × Window => e.2.compose.any (Compose.holds i)) he⟩

end Sys2Proof.Machine

/-! PROOFS. Every step keeps the windows consistent and no page in two of them (R139 to R146). -/

namespace Sys2Proof.Machine

/-! ## One window changed -/

/-- The window table is sound but for window w, of which nothing is said but that its page is shown
nowhere else and that it would agree with no advance due. Between the thaw of a window and the advance
that follows, this is what holds. -/
def State.readyAt (s : State) (w : Nat) : Prop :=
  Tab.wf resetWindow s.win = true ∧ (∀ e ∈ s.win, e.1 < 8) ∧
    (∀ u, u ≠ w → (s.window u).agrees) ∧ { s.window w with advanceDue := false }.agrees ∧
    ∀ u v p, u ≠ v → (s.window u).page = some p → (s.window v).page ≠ some p

theorem Window.agrees.withoutAdvance {v : Window} (h : v.agrees) :
    { v with advanceDue := false }.agrees := by
  obtain ⟨hpage, hcompose, hdirty, hfreeze, -, hheight⟩ := h
  exact ⟨hpage, hcompose, hdirty, hfreeze, by simp, hheight⟩

theorem State.windowsSound.page_ne {s : State} (h : s.windowsSound) {u v p : Nat} (huv : u ≠ v)
    (hu : (s.window u).page = some p) : (s.window v).page ≠ some p := by
  intro hv
  exact huv (h.2 u v p (h.1.shows_iff.mpr hu) (h.1.shows_iff.mpr hv))

theorem State.windowsSound.readyAt {s : State} (h : s.windowsSound) (w : Nat) : s.readyAt w :=
  ⟨h.1.1, h.1.2.1, fun u _ => h.1.agrees u, (h.1.agrees w).withoutAdvance,
    fun _ _ _ huv hu => h.page_ne huv hu⟩

/-- Sound windows are windows that each agree, with different pages. -/
theorem State.windowsSound_of_windows {s : State} (hwf : Tab.wf resetWindow s.win = true)
    (hlt : ∀ e ∈ s.win, e.1 < 8) (ha : ∀ w, (s.window w).agrees)
    (hp : ∀ u v p, u ≠ v → (s.window u).page = some p → (s.window v).page ≠ some p) :
    s.windowsSound := by
  refine ⟨⟨hwf, hlt, fun e he => ?_⟩, fun u v p hu hv => ?_⟩
  · rw [← State.window_of_mem ((Tab.wf_iff _ _).mp hwf).1 he]
    exact ha e.1
  · by_contra huv
    exact hp u v p huv hu.2 hv.2

/-- A window changed to one that agrees, on a page that no other window has. -/
theorem State.readyAt.windowsSound_modWindow {s : State} {w : Nat} (h : s.readyAt w) (hw : w < 8)
    {f : Window → Window} (ha : (f (s.window w)).agrees)
    (hp : ∀ u p, u ≠ w → (f (s.window w)).page = some p → (s.window u).page ≠ some p) :
    (s.modWindow w f).windowsSound := by
  obtain ⟨hwf, hlt, hagree, -, hpages⟩ := h
  refine State.windowsSound_of_windows (Tab.wf_put _ _ _ hwf) (State.modWindow_indices hlt hw f)
    (fun u => ?_) (fun u v p huv hu => ?_)
  · rw [State.window_modWindow]
    split
    · exact ha
    · exact hagree u ‹_›
  · rw [State.window_modWindow] at hu ⊢
    split at hu
    · next hu' =>
      rw [if_neg fun hv => huv (hu'.trans hv.symm)]
      exact hp v p (fun hv => huv (hu'.trans hv.symm)) hu
    · split
      · intro hv
        exact hp u p ‹_› hv hu
      · exact hpages u v p huv hu

/-- A window changed with its page left as it is. -/
theorem State.readyAt.windowsSound_modWindow_page {s : State} {w : Nat} (h : s.readyAt w)
    (hw : w < 8) {f : Window → Window} (ha : (f (s.window w)).agrees)
    (hf : (f (s.window w)).page = (s.window w).page) : (s.modWindow w f).windowsSound := by
  refine h.windowsSound_modWindow hw ha fun u p hu hp => ?_
  rw [hf] at hp
  exact h.2.2.2.2 w u p hu.symm hp

theorem State.windowsSound.modWindow {s : State} (h : s.windowsSound) {w : Nat} (hw : w < 8)
    {f : Window → Window} (ha : (s.window w).agrees → (f (s.window w)).agrees)
    (hf : (f (s.window w)).page = (s.window w).page) : (s.modWindow w f).windowsSound :=
  (h.readyAt w).windowsSound_modWindow_page hw (ha (h.1.agrees w)) hf

theorem State.windowsSound_congr {s t : State} (ht : t.win = s.win) (h : s.windowsSound) :
    t.windowsSound := by
  have hw (w : Nat) : t.window w = s.window w := by rw [State.window, ht]; rfl
  obtain ⟨⟨hwf, hlt, ha⟩, ho⟩ := h
  refine ⟨⟨ht ▸ hwf, ht ▸ hlt, ht ▸ ha⟩, fun u v p hu hv => ho u v p ?_ ?_⟩
  · rwa [State.shows, hw] at hu
  · rwa [State.shows, hw] at hv

/-! ## The compose of a page -/

theorem agrees_finishCompose {v : Window} (h : v.agrees) (hc : v.compose ≠ none) :
    (finishCompose v).agrees := by
  obtain ⟨hpage, hcompose, -, -, hadvance, hheight⟩ := h
  have hstate : v.state = .composing := by
    by_contra hne
    exact hc (hcompose.mpr hne)
  have hdue : v.advanceDue = false := by
    cases hd : v.advanceDue
    · rfl
    · simp [hstate] at hadvance hd
      simp [hd] at hadvance
  have hh : v.height ≠ 0 := fun h0 => by simp [hstate] at hheight; exact hheight h0
  have hp : v.page ≠ none := fun hn => by simpa [hstate] using hpage.mp hn
  unfold finishCompose Window.agrees
  cases v.freezeReq <;> simp [hp, hdue, hh]

theorem settleCompose_keeps {s : State} (w : Nat) (h : s.windowsSound) :
    (settleCompose w s).windowsSound := by
  unfold settleCompose
  split
  · next hc =>
    have hw : w < 8 := by
      by_contra hw
      rw [State.window_of_windowsAgree h.1 (by omega)] at hc
      cases hc
    exact h.modWindow hw (fun ha => agrees_finishCompose ha (by simp [hc])) rfl
  · exact h

/-- A compose set may change, but not whether there is one. -/
theorem agrees_compose {v : Window} (h : v.agrees) {c : Option Compose}
    (hc : c = none ↔ v.compose = none) : { v with compose := c }.agrees := by
  obtain ⟨hpage, hcompose, hrest⟩ := h
  exact ⟨hpage, hc.trans hcompose, hrest⟩

theorem initialDone_keeps {s : State} (i : Nat) (h : s.windowsSound) :
    (initialDone i s).windowsSound := by
  unfold initialDone
  split
  · exact h
  · next w hw =>
    obtain ⟨v, hv, -⟩ := State.composingOf_eq_some hw
    exact settleCompose_keeps w
      (h.modWindow (h.1.2.1 _ hv) (fun ha => agrees_compose ha (by simp)) rfl)

theorem enterFields_keeps {s : State} (w : Nat) (h : s.windowsSound) :
    (enterFields w s).windowsSound := by
  unfold enterFields
  split
  · exact h
  · next p hp =>
    split
    · next hc =>
      refine settleCompose_keeps w (State.windowsSound_congr (State.enqueue_win _ _ _) ?_)
      exact h.modWindow (h.1.lt_of_page hp) (fun ha => agrees_compose ha (by simp [hc])) rfl
    · exact h

theorem runAfter_keeps {s : State} (a : After) (h : s.windowsSound) :
    (runAfter a s).windowsSound := by
  cases a with
  | nothing => exact h
  | initial => exact State.windowsSound_congr (State.enqueue_win _ _ _) h
  | repaint => exact State.windowsSound_congr (State.enqueue_win _ _ _) h
  | fieldsPhase w => exact enterFields_keeps w h

theorem handOver_keeps {s : State} (bursts : List Burst) (a : After) (h : s.windowsSound) :
    (handOver bursts a s).windowsSound := by
  obtain ⟨-, -, e⟩ | ⟨-, e⟩ | ⟨-, -, e⟩ := handOver_cases bursts a s <;> rw [e]
  · exact State.windowsSound_congr rfl h
  · exact runAfter_keeps a h
  · exact runAfter_keeps a (State.windowsSound_congr rfl h)

theorem agrees_emptied {v : Window} (h : v.agrees) : (emptied v).agrees := by
  obtain ⟨-, -, -, -, -, hheight⟩ := h
  unfold emptied Window.agrees
  simpa using fun h0 => (hheight h0).2

theorem endPage_win (w : Nat) (s : State) :
    (endPage w s).win =
      if (s.window w).page = none then s.win else (s.modWindow w emptied).win := by
  unfold endPage
  cases hp : (s.window w).page with
  | none => simp
  | some p =>
    have := abandonBursts_frame w
      ((unlightPage p s).modPnt fun q => { q with burst := q.burst.bind (releaseBurst p) })
    dsimp only
    rw [this]
    simp [State.modWindow, State.modWin, unlightPage]

theorem endPage_keeps {s : State} (w : Nat) (h : s.windowsSound) : (endPage w s).windowsSound := by
  refine State.windowsSound_congr
    (s := if (s.window w).page = none then s else s.modWindow w emptied) ?_ ?_
  · rw [endPage_win]
    split <;> rfl
  · split
    · exact h
    · next hp =>
      obtain ⟨p, hp⟩ := Option.ne_none_iff_exists'.mp hp
      exact (h.readyAt w).windowsSound_modWindow (h.1.lt_of_page hp)
        (agrees_emptied (h.1.agrees w)) (by simp [emptied])

/-- A window without a page is EMPTY, with nothing of a page left. -/
theorem endPage_window_self (s : State) (w : Nat) :
    ((endPage w s).window w).page = none ∧
      ((endPage w s).window w).height = (s.window w).height ∧
      ∀ u, u ≠ w → (endPage w s).window u = s.window u := by
  obtain ⟨hp, e⟩ | ⟨-, hw, hu, -⟩ := endPage_cases w s
  · rw [e]
    exact ⟨hp, rfl, fun _ _ => rfl⟩
  · exact ⟨by rw [hw]; rfl, by rw [hw]; rfl, hu⟩

/-- A window without a page that has a band takes a page. -/
theorem agrees_composing {v : Window} (h : v.agrees) (hp : v.page = none) (hh : v.height ≠ 0)
    (p : Nat) :
    { v with state := .composing, page := some p, compose := some .bursts }.agrees := by
  obtain ⟨hpage, -, hdirty, hfreeze, hadvance, -⟩ := h
  have hs := hpage.mp hp
  simp only [hs] at hdirty hfreeze hadvance
  simp_all [Window.agrees]

theorem beginCompose_keeps {s : State} {w p : Nat} (h : s.windowsSound) (hw : w < 8)
    (hh : (s.window w).height ≠ 0) (hp : ∀ u, u ≠ w → ¬ s.shows u p) :
    (beginCompose w p s).windowsSound := by
  obtain ⟨hpage, hheight, hother⟩ := endPage_window_self s w
  refine handOver_keeps _ _ (((endPage_keeps w h).readyAt w).windowsSound_modWindow hw ?_ ?_)
  · exact agrees_composing ((endPage_keeps w h).1.agrees w) hpage (hheight ▸ hh) p
  · intro u q hu hq
    obtain rfl := Option.some.inj hq
    rw [hother u hu]
    exact fun hq => hp u hu (h.1.shows_iff.mpr hq)

/-! ## Carousels -/

theorem agrees_atStep {v : Window} (h : { v with advanceDue := false }.agrees) (i d : Nat) :
    (atStep i d v).agrees := h

theorem State.tallySkips_win (n : Nat) (s : State) : (tallySkips n s).win = s.win := by
  rw [tallySkips_frame]

/-- The step examined first and not skipped has a page that no other window shows. -/
theorem examineSteps_chosen {s : State} {w j : Nat} {l : List Nat}
    (h : (examineSteps s w l).2 = some j) :
    j ∈ l ∧ ∀ q, (s.stepAt w j).page = some q → s.shownElsewhere q w = false := by
  induction l with
  | nil => simp [examineSteps] at h
  | cons i l ih =>
    unfold examineSteps at h
    split at h
    · obtain ⟨hj, hq⟩ := ih h
      exact ⟨List.mem_cons_of_mem _ hj, hq⟩
    · next hi =>
      obtain rfl := Option.some.inj h
      refine ⟨List.mem_cons_self, fun q hq => ?_⟩
      simpa [hq] using hi

theorem State.readyAt.rising {s : State} {w : Nat} (h : s.readyAt w) : Tab.rising s.win = true :=
  ((Tab.wf_iff _ _).mp h.1).1

theorem State.readyAt_congr {s t : State} (ht : t.win = s.win) {w : Nat} (h : s.readyAt w) :
    t.readyAt w := by
  have hw (w : Nat) : t.window w = s.window w := by rw [State.window, ht]; rfl
  simpa only [State.readyAt, ht, hw] using h

theorem selectStep_keeps {s : State} {w : Nat} (i : Nat) (h : s.readyAt w) (hw : w < 8)
    (hh : (s.window w).height ≠ 0) (hn : s.programLength w ≠ 0) :
    (selectStep w i s).windowsSound := by
  have hskip (n : Nat) : (tallySkips n s).readyAt w :=
    State.readyAt_congr (State.tallySkips_win n s) h
  have hsame (n u : Nat) : (tallySkips n s).window u = s.window u := by
    rw [State.window, State.tallySkips_win]; rfl
  have hat (n j d : Nat) : ((tallySkips n s).modWindow w (atStep j d)).windowsSound :=
    (hskip n).windowsSound_modWindow_page hw (agrees_atStep (hskip n).2.2.2.1 j d) rfl
  unfold selectStep
  rw [if_neg hn]
  dsimp only
  split
  · exact hat ..
  · next j hj =>
    split
    · exact hat ..
    · next q hq =>
      split
      · exact hat ..
      · refine beginCompose_keeps (hat ..) hw ?_ fun u hu hs => ?_
        · rw [State.window_modWindow, if_pos rfl, hsame]
          exact hh
        · rw [State.shows, State.window_modWindow, if_neg hu, hsame] at hs
          have := (examineSteps_chosen hj).2 q hq
          rw [Bool.eq_false_iff, ne_eq, State.shownElsewhere_iff h.rising] at this
          exact this ⟨u, hu, hs⟩

theorem agrees_stopped {v : Window} (h : { v with advanceDue := false }.agrees) :
    (stopped v).agrees := by
  obtain ⟨hpage, hcompose, hdirty, hfreeze, -, hheight⟩ := h
  exact ⟨hpage, hcompose, hdirty, hfreeze, by simp [stopped], fun h0 => ⟨(hheight h0).1, rfl⟩⟩

theorem advance_keeps {s : State} {w : Nat} (h : s.readyAt w) (hw : w < 8)
    (hh : (s.window w).height ≠ 0) : (advance w s).windowsSound := by
  unfold advance
  split
  · exact h.windowsSound_modWindow_page hw (agrees_stopped h.2.2.2.1) rfl
  · exact selectStep_keeps _ h hw hh ‹_›

theorem expireDwell_keeps {s : State} {w : Nat} (h : s.windowsSound) (hw : w < 8)
    (hh : (s.window w).height ≠ 0) : (expireDwell w s).windowsSound := by
  unfold expireDwell
  split
  · next hf =>
    refine h.modWindow hw (fun ha => ?_) rfl
    obtain ⟨hpage, hcompose, hdirty, hfreeze, -, hheight⟩ := ha
    exact ⟨hpage, hcompose, hdirty, hfreeze, fun _ => hf, hheight⟩
  · exact advance_keeps (h.readyAt w) hw hh

/-- A window whose carousel is not STOPPED has a band. -/
theorem Window.agrees.height_ne_of_carousel {v : Window} (h : v.agrees)
    (hc : v.carousel ≠ .stopped) : v.height ≠ 0 := fun h0 => hc (h.2.2.2.2.2 h0).2

/-- A window that is not EMPTY has a band. -/
theorem Window.agrees.height_ne_of_state {v : Window} (h : v.agrees) (hs : v.state ≠ .empty) :
    v.height ≠ 0 := fun h0 => hs (h.2.2.2.2.2 h0).1

/-- A window with a band agrees whatever its carousel, step and dwell. -/
theorem agrees_carousel {v : Window} (h : v.agrees) (hh : v.height ≠ 0) (c : CarouselState) :
    { v with carousel := c }.agrees := by
  obtain ⟨hpage, hcompose, hdirty, hfreeze, hadvance, -⟩ := h
  exact ⟨hpage, hcompose, hdirty, hfreeze, hadvance, fun h0 => absurd h0 hh⟩

theorem unpinned_keeps {s : State} {w : Nat} (h : s.windowsSound) (hw : w < 8)
    (hh : (s.window w).height ≠ 0) : (s.modWindow w unpinned).windowsSound :=
  h.modWindow hw (fun ha => agrees_carousel ha hh _) rfl

theorem State.window_modWindow_self (s : State) (w : Nat) (f : Window → Window) :
    (s.modWindow w f).window w = f (s.window w) := by rw [State.window_modWindow, if_pos rfl]

theorem not_shows_of_shownElsewhere {s : State} (h : s.windowsSound) {q w : Nat}
    (hq : ¬ s.shownElsewhere q w = true) : ∀ u, u ≠ w → ¬ s.shows u q := by
  intro u hu hs
  exact hq ((State.shownElsewhere_iff h.1.rising q w).mpr ⟨u, hu, hs⟩)

theorem resumeStep_keeps {s : State} {w : Nat} (h : s.windowsSound) (hw : w < 8)
    (hh : (s.window w).height ≠ 0) : (resumeStep w s).windowsSound := by
  unfold resumeStep
  dsimp only
  split
  · exact h.modWindow hw (fun ha => agrees_stopped ha.withoutAdvance) rfl
  · split
    · refine expireDwell_keeps (h.modWindow hw (fun ha => ha) rfl) hw ?_
      rw [State.window_modWindow_self]
      exact hh
    · split
      · exact h
      · split
        · exact expireDwell_keeps (State.windowsSound_congr rfl h) hw hh
        · next hq =>
          split
          · exact h
          · exact beginCompose_keeps h hw hh (not_shows_of_shownElsewhere h hq)

/-! ## Commands -/

theorem takeShow_keeps (n : Station) (window page : Byte) (s : State) (h : s.windowsSound) :
    (takeShow n window page s).windowsSound := by
  unfold takeShow
  split
  · next w p hw hp =>
    obtain ⟨-, hw⟩ := readWindow_eq_some hw
    split
    · exact State.windowsSound_congr rfl h
    · next hexists =>
      have hh : (s.window w).height ≠ 0 := by
        simp only [State.windowExists, Bool.not_eq_true', decide_eq_false_iff_not] at hexists
        omega
      split
      · exact State.windowsSound_congr rfl h
      · next he =>
        have hpin : (s.modWindow w pinned).windowsSound := by
          refine h.modWindow hw (fun ha => ?_) (by unfold pinned; split <;> rfl)
          unfold pinned
          split
          · exact agrees_carousel ha.withoutAdvance hh _
          · exact ha
        unfold showTaken
        dsimp only
        split
        · exact hpin
        · refine beginCompose_keeps hpin hw ?_ fun u hu hs => ?_
          · rw [State.window_modWindow_self]
            unfold pinned
            split <;> exact hh
          · rw [State.shows, State.window_modWindow, if_neg hu] at hs
            exact not_shows_of_shownElsewhere h he u hu hs
  · exact State.windowsSound_congr rfl h
  · exact State.windowsSound_congr rfl h

theorem takeRelease_keeps (w : Nat) (s : State) (hw : w < 8) (h : s.windowsSound) :
    (takeRelease w s).windowsSound := by
  unfold takeRelease
  split
  · next hc =>
    have hh := (h.1.agrees w).height_ne_of_carousel (by simp [hc])
    refine resumeStep_keeps (unpinned_keeps h hw hh) hw ?_
    rw [State.window_modWindow_self]
    exact hh
  · exact h

theorem State.programLength_modWindow (s : State) (w u : Nat) (f : Window → Window) :
    (s.modWindow w f).programLength u = s.programLength u := by
  have hstep (n i : Nat) : stepsFrom (s.modWindow w f) u n i = stepsFrom s u n i := by
    induction n generalizing i with
    | zero => rfl
    | succ n ih =>
      unfold stepsFrom
      rw [ih]
      rfl
  exact hstep 16 0

theorem takeRun_keeps (n : Station) (w : Nat) (s : State) (hw : w < 8) (h : s.windowsSound) :
    (takeRun n w s).windowsSound := by
  unfold takeRun
  split
  · exact State.windowsSound_congr rfl h
  · next hexists =>
    have hh : (s.window w).height ≠ 0 := by
      simp only [State.windowExists, Bool.not_eq_true', decide_eq_false_iff_not] at hexists
      omega
    split
    · split
      · exact h
      · refine selectStep_keeps 0 ((unpinned_keeps h hw hh).readyAt w) hw ?_ ?_
        · rw [State.window_modWindow_self]
          exact hh
        · rw [State.programLength_modWindow]
          assumption
    · exact h

theorem agrees_halted {v : Window} (h : v.agrees) : (halted v).agrees := by
  obtain ⟨hpage, hcompose, hdirty, hfreeze, -, hheight⟩ := h
  exact ⟨hpage, hcompose, hdirty, hfreeze, by simp [halted], fun h0 => ⟨(hheight h0).1, rfl⟩⟩

theorem takeHalt_keeps (w : Nat) (s : State) (hw : w < 8) (h : s.windowsSound) :
    (takeHalt w s).windowsSound := h.modWindow hw agrees_halted rfl

theorem frozenBy_page (v : Window) : (frozenBy v).page = v.page := by
  unfold frozenBy
  split <;> rfl

theorem agrees_frozenBy {v : Window} (h : v.agrees) : (frozenBy v).agrees := by
  unfold frozenBy
  split
  · next hs =>
    obtain ⟨hpage, hcompose, -, hfreeze, -, hheight⟩ := h
    simp only [hs] at hpage hcompose hfreeze hheight
    simp_all [Window.agrees]
  · next hs =>
    obtain ⟨hpage, hcompose, hdirty, -, hadvance, hheight⟩ := h
    exact ⟨hpage, hcompose, hdirty, fun _ => hs, hadvance, hheight⟩
  · exact h
  · exact h

theorem takeFreeze_keeps (w : Nat) (s : State) (hw : w < 8) (h : s.windowsSound) :
    (takeFreeze w s).windowsSound := h.modWindow hw agrees_frozenBy (frozenBy_page _)

theorem unfreeze_win (w : Nat) (s : State) :
    (unfreeze w s).win = (s.modWindow w fun v => { v with state := .showing, dirty := false }).win := by
  unfold unfreeze
  dsimp only
  split <;> rfl

/-- A FROZEN window thawed agrees but for an advance that is due. -/
theorem agrees_unfrozen {v : Window} (h : v.agrees) (hs : v.state = .frozen) :
    { v with state := .showing, dirty := false, advanceDue := false }.agrees := by
  obtain ⟨hpage, hcompose, -, hfreeze, -, hheight⟩ := h
  simp only [hs] at hpage hcompose hfreeze hheight
  simp_all [Window.agrees]

theorem unfreeze_ready {s : State} {w : Nat} (h : s.windowsSound) (hw : w < 8)
    (hs : (s.window w).state = .frozen) : (unfreeze w s).readyAt w := by
  refine State.readyAt_congr (unfreeze_win w s) ⟨Tab.wf_put _ _ _ h.1.1,
    State.modWindow_indices h.1.2.1 hw _, fun u hu => ?_, ?_, fun u v p huv hu => ?_⟩
  · rw [State.window_modWindow, if_neg hu]
    exact h.1.agrees u
  · rw [State.window_modWindow_self]
    exact agrees_unfrozen (v := s.window w) (h.1.agrees w) hs
  · have hpage (u : Nat) : ((s.modWindow w fun v => { v with state := .showing, dirty := false }).window
        u).page = (s.window u).page := by
      rw [State.window_modWindow]
      split
      · next e => rw [e]
      · rfl
    rw [hpage] at hu ⊢
    exact h.page_ne huv hu

theorem takeThaw_keeps (w : Nat) (s : State) (hw : w < 8) (h : s.windowsSound) :
    (takeThaw w s).windowsSound := by
  unfold takeThaw
  split
  · next hs =>
    have hheight : ((unfreeze w s).window w).height = (s.window w).height := by
      have := State.window_modWindow_self s w fun v => { v with state := .showing, dirty := false }
      rw [State.window, unfreeze_win, ← State.window, this]
    split
    · refine advance_keeps (unfreeze_ready h hw hs) hw ?_
      rw [hheight]
      exact (h.1.agrees w).height_ne_of_state (by simp [hs])
    · next hd =>
      refine State.windowsSound_congr (unfreeze_win w s) (h.modWindow hw (fun ha => ?_) rfl)
      rw [Bool.not_eq_true] at hd
      have := agrees_unfrozen ha hs
      rwa [hd]
  · next hs =>
    refine h.modWindow hw (fun ha => ?_) rfl
    obtain ⟨hpage, hcompose, hdirty, -, hadvance, hheight⟩ := ha
    exact ⟨hpage, hcompose, hdirty, by simp, hadvance, hheight⟩
  · exact h
  · exact h

theorem takeOverride_keeps (m : OverrideMode) (w : Nat) (s : State) (hw : w < 8)
    (h : s.windowsSound) : (takeOverride m w s).windowsSound := by
  have hset : (s.modWindow w fun v => { v with override := m }).windowsSound :=
    h.modWindow hw (fun ha => ha) rfl
  unfold takeOverride
  dsimp only
  split
  · exact hset
  · exact State.windowsSound_congr (State.enqueue_win _ _ _) hset

theorem takeDwellExpiry_keeps (w : Nat) (s : State) (hw : w < 8) (h : s.windowsSound) :
    (takeDwellExpiry w s).windowsSound := by
  unfold takeDwellExpiry
  split
  · next he =>
    have hc : (s.window w).carousel = .running := by
      simp only [expiresNow, dwellCounts, Bool.and_eq_true, decide_eq_true_eq] at he
      exact he.2.1.1.1
    refine expireDwell_keeps (h.modWindow hw (fun ha => ha) rfl) hw ?_
    rw [State.window_modWindow_self]
    exact (h.1.agrees w).height_ne_of_carousel (by simp [hc])
  · exact h

/-! ## The sweep start's count of the dwells -/

theorem countDwell_fields (v : Window) :
    countDwell v = { v with dwell := (countDwell v).dwell, dwellDue := (countDwell v).dwellDue } := by
  unfold countDwell
  split
  · split <;> rfl
  · rfl

theorem countDwell_resetWindow : countDwell resetWindow = resetWindow := by decide

theorem State.window_countDwells {s : State} (hr : Tab.rising s.win = true) (w : Nat) :
    (countDwells s).window w = countDwell (s.window w) :=
  Tab.get_mapPut countDwell_resetWindow w hr

theorem countDwells_keeps {s : State} (h : s.windowsSound) : (countDwells s).windowsSound := by
  have hpage (w : Nat) : ((countDwells s).window w).page = (s.window w).page := by
    rw [State.window_countDwells h.1.rising, countDwell_fields]
  refine State.windowsSound_of_windows (Tab.wf_mapPut _ _ h.1.1) (fun e he => ?_) (fun w => ?_)
    (fun u v p huv hu => ?_)
  · obtain ⟨v, hv, -⟩ := Tab.mem_mapValues.mp (List.mem_filter.mp he).1
    exact h.1.2.1 (e.1, v) hv
  · rw [State.window_countDwells h.1.rising, countDwell_fields]
    exact h.1.agrees w
  · rw [hpage] at hu ⊢
    exact h.page_ne huv hu

theorem sweepStart_win (m : MarkClass) (s : State) : (sweepStart m s).win = (countDwells s).win := by
  unfold sweepStart beginRefreshPass
  rw [runRefreshPass_frame]
  rfl

/-! ## Layout records -/

theorem unbindCompose_keeps {s : State} (i : Nat) (h : s.windowsSound) :
    (unbindCompose i s).windowsSound := by
  unfold unbindCompose
  split
  · exact h
  · next w hw =>
    obtain ⟨v, hv, -⟩ := State.composingOf_eq_some hw
    exact h.modWindow (h.1.2.1 _ hv) (fun ha => agrees_compose ha (by simp)) rfl

theorem unbind_keeps {s : State} (i : Nat) (h : s.windowsSound) : (unbind i s).windowsSound := by
  unfold unbind
  split
  · exact h
  · exact State.windowsSound_congr rfl
      (unbindCompose_keeps i (s := s.modPnt (unbindPaint i)) (State.windowsSound_congr rfl h))

theorem bindField_keeps {s : State} (i : Nat) (f : Field) (h : s.windowsSound) :
    (bindField i f s).windowsSound := by
  have hlay : (s.modLay fun l => { l with fields := Tab.insert i f l.fields }).windowsSound :=
    State.windowsSound_congr rfl h
  unfold bindField
  dsimp only
  split
  · exact hlay
  · next w v hshow =>
    split
    · obtain ⟨-, -, hv⟩ := State.showing_eq_some hlay.1.rising hshow
      exact hlay.modWindow (hlay.1.2.1 _ hv) (fun ha => agrees_compose ha (by simp)) rfl
    · exact hlay

theorem changeIndex_keeps {s : State} (c : Nat × EntryRead) (h : s.windowsSound) :
    (changeIndex s c).windowsSound := by
  unfold changeIndex
  split
  · exact unbind_keeps _ h
  · exact bindField_keeps _ _ (unbind_keeps _ h)

theorem foldl_changeIndex_keeps (run : List (Nat × EntryRead)) {s : State} (h : s.windowsSound) :
    (run.foldl changeIndex s).windowsSound := by
  induction run generalizing s with
  | nil => exact h
  | cons c run ih => exact ih (changeIndex_keeps c h)

theorem settleComposes_keeps {s : State} (h : s.windowsSound) : (settleComposes s).windowsSound := by
  have hfold (l : List Nat) (s : State) (h : s.windowsSound) :
      (l.foldl (fun s w => settleCompose w s) s).windowsSound := by
    induction l generalizing s with
    | nil => exact h
    | cons w l ih => exact ih _ (settleCompose_keeps w h)
  exact hfold _ s h

theorem commitFields_keeps {s : State} (run : List (Nat × EntryRead)) (pointer : Nat)
    (h : s.windowsSound) : (commitFields run pointer s).windowsSound := by
  unfold commitFields
  dsimp only
  refine settleComposes_keeps (handOver_keeps _ _
    (State.windowsSound_congr (s := run.foldl changeIndex s) ?_ (foldl_changeIndex_keeps run h)))
  rw [settleKeys_frame]
  rfl

theorem takeField_keeps (n : Station) (r : FieldRecord) (s : State) (h : s.windowsSound) :
    (takeField n r s).windowsSound := by
  have hrefuse (reason : Reason) : (refuseRecord 1 reason n s).windowsSound :=
    State.windowsSound_congr rfl h
  unfold takeField
  split
  · exact hrefuse _
  · dsimp only
    split
    · exact hrefuse _
    · split
      · exact hrefuse _
      · split
        · exact hrefuse _
        · exact commitFields_keeps _ _ h

theorem takeLabel_keeps (n : Station) (r : LabelRecord) (s : State) (h : s.windowsSound) :
    (takeLabel n r s).windowsSound := by
  unfold takeLabel
  split
  · exact State.windowsSound_congr rfl h
  · split
    · exact State.windowsSound_congr rfl h
    · exact handOver_keeps _ _ (State.windowsSound_congr rfl h)

theorem agrees_ended {v : Window} (h : v.agrees) (hp : v.page = none) : (ended v).agrees := by
  obtain ⟨hpage, hcompose, hdirty, hfreeze, -, -⟩ := h
  have hs := hpage.mp hp
  simp only [hs] at hpage hcompose hdirty hfreeze
  simp_all [ended, Window.agrees]

theorem endWindow_keeps {s : State} {w : Nat} (hw : w < 8) (h : s.windowsSound) :
    (endWindow w s).windowsSound := by
  unfold endWindow
  dsimp only
  split
  · exact h
  · refine handOver_keeps _ _ ((endPage_keeps w h).modWindow hw (fun ha => ?_) rfl)
    exact agrees_ended ha (endPage_window_self s w).1

/-- A band above height 0 suits every window. -/
theorem agrees_band {v : Window} (h : v.agrees) (top height : Nat) (c : Colour) (hh : height ≠ 0) :
    { v with top := top, height := height, background := c }.agrees := by
  obtain ⟨hpage, hcompose, hdirty, hfreeze, hadvance, -⟩ := h
  exact ⟨hpage, hcompose, hdirty, hfreeze, hadvance, fun h0 => absurd h0 hh⟩

theorem openWindow_keeps {s : State} {w : Nat} (hw : w < 8) (r : WindowRecord) (page : Option Nat)
    (hh : r.height.toNat ≠ 0) (h : s.windowsSound) : (openWindow w r page s).windowsSound := by
  have hband : (s.modWindow w fun v =>
      { v with top := r.top.toNat, height := r.height.toNat, background := r.background }).windowsSound :=
    h.modWindow hw (fun ha => agrees_band ha _ _ _ hh) rfl
  unfold openWindow
  dsimp only
  split
  · exact hband
  · next p =>
    split
    · exact hband
    · next hs =>
      refine beginCompose_keeps hband hw ?_ fun u _ => ?_
      · rw [State.window_modWindow_self]
        exact hh
      · rw [Option.not_isSome_iff_eq_none, State.showing_eq_none_iff hband.1.rising] at hs
        exact hs u

theorem takeWindow_keeps (n : Station) (r : WindowRecord) (s : State) (h : s.windowsSound) :
    (takeWindow n r s).windowsSound := by
  unfold takeWindow
  split
  · exact State.windowsSound_congr rfl h
  · next w hw =>
    obtain ⟨-, hw⟩ := readWindow_eq_some hw
    split
    · exact endWindow_keeps hw h
    · next hh =>
      split
      · exact State.windowsSound_congr rfl h
      · refine openWindow_keeps hw r _ (fun h0 => hh ?_) (endWindow_keeps hw h)
        exact BitVec.eq_of_toNat_eq h0

/-! ## The Painter -/

theorem skipReq_keeps {s : State} (q : PaintReq) (h : s.windowsSound) :
    (skipReq q s).windowsSound := by
  unfold skipReq
  split
  · exact initialDone_keeps _ h
  · exact h

theorem paintSite_eq_some {s : State} {i w : Nat} {f : Field} {v : Window}
    (h : paintSite s i = some (f, w, v)) :
    Tab.look i s.lay.fields = some f ∧ s.showing f.page = some (w, v) ∧ f.row < v.height := by
  unfold paintSite at h
  split at h
  · cases h
  · split at h
    · cases h
    · split at h
      · cases h
        exact ⟨by assumption, by assumption, by assumption⟩
      · cases h

theorem servePaint_keeps (s : State) (h : s.windowsSound) : (servePaint s).windowsSound := by
  unfold servePaint
  split
  · next q t _ _ =>
    have hq : (s.modPnt fun p => { p with queue := t }).windowsSound := State.windowsSound_congr rfl h
    unfold serveReq
    split
    · exact skipReq_keeps _ hq
    · next f w v hsite =>
      obtain ⟨-, hshow, -⟩ := paintSite_eq_some hsite
      obtain ⟨-, rfl, hv⟩ := State.showing_eq_some hq.1.rising hshow
      split
      · next hs =>
        refine skipReq_keeps _ (hq.modWindow (hq.1.2.1 _ hv) (fun ha => ?_) rfl)
        obtain ⟨hpage, hcompose, -, hfreeze, hadvance, hheight⟩ := ha
        exact ⟨hpage, hcompose, fun _ => hs, hfreeze, hadvance, hheight⟩
      · unfold paintReq
        split <;> exact State.windowsSound_congr rfl hq
  · exact h
  · exact h

theorem setFlash_win (i : Nat) (f : Flash) (hold : Nat) (s : State) :
    (setFlash i f hold s).win = s.win := rfl

theorem commitBurst_keeps {s : State} (b : PaintBurst) (h : s.windowsSound) :
    (commitBurst b s).windowsSound := by
  have hdone {u : State} (hu : u.windowsSound) :
      (if b.kind = .initial then initialDone b.index u else u).windowsSound := by
    split
    · exact initialDone_keeps _ hu
    · exact hu
  unfold commitBurst
  dsimp only
  refine hdone (State.windowsSound_congr ?_ h)
  split <;> split <;> rfl

theorem commitPaint_keeps (s : State) (h : s.windowsSound) : (commitPaint s).windowsSound := by
  unfold commitPaint
  split
  · exact h
  · split
    · dsimp only
      split
      · exact State.windowsSound_congr rfl h
      · exact commitBurst_keeps _ (State.windowsSound_congr rfl h)
    · exact h

theorem completeWrite_keeps (s : State) (h : s.windowsSound) : (completeWrite s).windowsSound := by
  unfold completeWrite
  split
  · exact h
  · unfold tellWritten
    split
    · exact State.windowsSound_congr rfl h
    · exact State.windowsSound_congr rfl h
    · exact State.windowsSound_congr rfl h
    · exact runAfter_keeps _ (State.windowsSound_congr rfl h)

/-! ## Every step -/

theorem windowsSound_nil {s : State} (h : s.win = []) : s.windowsSound := by
  have hw (w : Nat) : s.window w = resetWindow := by rw [State.window, h]; rfl
  refine State.windowsSound_of_windows (by rw [h]; rfl) (by rw [h]; simp) (fun w => ?_) ?_
  · rw [hw]
    exact agrees_resetWindow
  · intro u v p _ hu
    rw [hw] at hu
    cases hu

theorem windowsSound_kept : Kept State.windowsSound where
  link _ _ _ := State.windowsSound_congr rfl
  counts _ _ := State.windowsSound_congr rfl
  origin _ _ := State.windowsSound_congr rfl
  port _ _ _ _ _ := State.windowsSound_congr rfl
  tables _ _ _ _ _ _ := State.windowsSound_congr rfl
  reset _ _ := State.windowsSound_congr rfl
  released _ _ _ _ := windowsSound_nil rfl
  sweep m s h := State.windowsSound_congr (sweepStart_win m s) (countDwells_keeps h)
  deadlines s := State.windowsSound_congr (read_of_frame State.win (runRefreshPass_frame true s) rfl)
  status s := State.windowsSound_congr (read_of_frame State.win (offerStatus_frame s) rfl)
  report n s := State.windowsSound_congr (read_of_frame State.win (reportStation_frame n s) rfl)
  presence n k s := State.windowsSound_congr (read_of_frame State.win (takePresence_frame n k s) rfl)
  mark n m s := State.windowsSound_congr (read_of_frame State.win (setMark_frame n m s) rfl)
  tick n b s := State.windowsSound_congr (read_of_frame State.win (takeTick_frame n b s) rfl)
  apply s := State.windowsSound_congr (read_of_frame State.win (takeHead_frame s) rfl)
  stale _ := State.windowsSound_congr rfl
  show_ := takeShow_keeps
  release := takeRelease_keeps
  run := takeRun_keeps
  halt := takeHalt_keeps
  freeze := takeFreeze_keeps
  thaw := takeThaw_keeps
  override := takeOverride_keeps
  dwell := takeDwellExpiry_keeps
  clear _ _ := windowsSound_nil rfl
  field := takeField_keeps
  label := takeLabel_keeps
  window := takeWindow_keeps
  prog n r s := State.windowsSound_congr (read_of_frame State.win (takeProg_frame n r s) rfl)
  limit _ _ := State.windowsSound_congr rfl
  handoff n b s := State.windowsSound_congr (read_of_frame State.win (takeHandoff_frame n b s) rfl)
  crawlText b s := State.windowsSound_congr (read_of_frame State.win (takeCrawlText_frame b s) rfl)
  flush s := State.windowsSound_congr (read_of_frame State.win (flushCrawl_frame s) rfl)
  crawl s := State.windowsSound_congr (read_of_frame State.win (takeStep_frame s) rfl)
  paint := servePaint_keeps
  commit := commitPaint_keeps
  pending _ := State.windowsSound_congr rfl
  highlights _ := State.windowsSound_congr rfl
  grant s := State.windowsSound_congr (read_of_frame State.win (grantNext_frame s) rfl)
  transfer := completeWrite_keeps

/-- Settles O57: each block's effect keeps the windows sound, and so does every step. -/
theorem windowsStaySound : Obligations.WindowsStaySound := fun _ _ hs he =>
  windowsSound_kept.step (fun _ _ => State.windowsSound_congr rfl) hs he

/-- Settles O1: the step is defined so. -/
theorem stepTakesFront : Obligations.StepTakesFront := by
  intro c s rest h
  rw [step, h]

/-- No block's effect changes the commands that wait. -/
theorem pending_kept (q : List Instr) : Kept (fun s => s.pending = q) where
  link _ _ _ h := h
  counts _ _ h := h
  origin _ _ h := h
  port _ _ _ _ _ h := h
  tables _ _ _ _ _ _ h := h
  reset _ _ h := h
  released _ _ _ h := h
  sweep m s h := (read_of_frame State.pending (sweepStart_frame m s) rfl).trans h
  deadlines s h := (read_of_frame State.pending (runRefreshPass_frame true s) rfl).trans h
  status s h := (read_of_frame State.pending (offerStatus_frame s) rfl).trans h
  report n s h := (read_of_frame State.pending (reportStation_frame n s) rfl).trans h
  presence n k s h := (read_of_frame State.pending (takePresence_frame n k s) rfl).trans h
  mark n m s h := (read_of_frame State.pending (setMark_frame n m s) rfl).trans h
  tick n b s h := (read_of_frame State.pending (takeTick_frame n b s) rfl).trans h
  apply s h := (read_of_frame State.pending (takeHead_frame s) rfl).trans h
  stale _ h := h
  show_ n w p s h := (read_of_frame State.pending (takeShow_frame n w p s) rfl).trans h
  release w s _ h := (read_of_frame State.pending (takeRelease_frame w s) rfl).trans h
  run n w s _ h := (read_of_frame State.pending (takeRun_frame n w s) rfl).trans h
  halt _ _ _ h := h
  freeze _ _ _ h := h
  thaw w s _ h := (read_of_frame State.pending (takeThaw_frame w s) rfl).trans h
  override m w s _ h := (read_of_frame State.pending (takeOverride_frame m w s) rfl).trans h
  dwell w s _ h := (read_of_frame State.pending (takeDwellExpiry_frame w s) rfl).trans h
  clear _ h := h
  field n r s h := (read_of_frame State.pending (takeField_frame n r s) rfl).trans h
  label n r s h := (read_of_frame State.pending (takeLabel_frame n r s) rfl).trans h
  window n r s h := (read_of_frame State.pending (takeWindow_frame n r s) rfl).trans h
  prog n r s h := (read_of_frame State.pending (takeProg_frame n r s) rfl).trans h
  limit _ _ h := h
  handoff n b s h := (read_of_frame State.pending (takeHandoff_frame n b s) rfl).trans h
  crawlText b s h := (read_of_frame State.pending (takeCrawlText_frame b s) rfl).trans h
  flush s h := (read_of_frame State.pending (flushCrawl_frame s) rfl).trans h
  crawl s h := (read_of_frame State.pending (takeStep_frame s) rfl).trans h
  paint s h := (read_of_frame State.pending (servePaint_frame s) rfl).trans h
  commit s h := (read_of_frame State.pending (commitPaint_frame s) rfl).trans h
  pending _ h := h
  highlights _ h := h
  grant s h := (read_of_frame State.pending (grantNext_frame s) rfl).trans h
  transfer s h := (read_of_frame State.pending (completeWrite_frame s) rfl).trans h

/-- Settles O2: every command completes, and none changes the queue of waiting commands. -/
theorem commandsComplete : Obligations.CommandsComplete := by
  intro c s
  obtain ⟨t, ht⟩ := exec_completes c s
  exact ⟨t, ht, (pending_kept s.pending).exec rfl ht⟩

end Sys2Proof.Machine

/-! PROOFS. Pages and carousels for properties that no window matters to: what the end and the beginning
of a page, a carousel's step and the commands of the Window controller keep. -/

namespace Sys2Proof.Machine

/-- What follows a burst names no field index but those of a set. -/
def After.within (ok : Nat → Prop) (a : After) : Prop := ∀ l, a = .initial l → ∀ i ∈ l, ok i

/-- A property that does not rest on the windows, and that requests of fields, bursts with room and the
end of a page keep. A request names a field index of a set, or one that is bound. -/
structure Paging (ok : Nat → Prop) (P : State → Prop) : Prop where
  window : ∀ (w : Nat) (f : Window → Window) (s : State), P s → P (s.modWindow w f)
  counts : ∀ (f : Sts → Sts) (s : State), P s → P (s.modSts f)
  enqueue : ∀ (kind : PaintKind) (l : List Nat) (s : State),
    (∀ i ∈ l, ok i ∨ ∃ f, (i, f) ∈ s.lay.fields) → P s → P (s.enqueue kind l)
  list : ∀ (bursts : List Burst) (s : State), s.cpl.bursts.length + bursts.length ≤ burstRoom →
    (∀ b ∈ bursts, b.after.within ok) → P s → P (listBursts bursts s)
  unlight : ∀ (p : Nat) (s : State), P s → P (unlightPage p s)
  burst : ∀ (g : PaintBurst → Option PaintBurst) (s : State),
    (∀ b b', g b = some b' → b'.index = b.index) → P s →
    P (s.modPnt fun p => { p with burst := p.burst.bind g })
  withdraw : ∀ (w : Nat) (s : State), P s → P (withdrawBursts w s)

variable {P : State → Prop} {ok : Nat → Prop}

theorem mem_visibleFields {fields : Tab Field} {page height i : Nat} :
    i ∈ visibleFields fields page height ↔ ∃ f, (i, f) ∈ fields ∧ f.page = page ∧ f.row < height := by
  simp [visibleFields]

theorem Paging.settleCompose (h : Paging ok P) (w : Nat) {s : State} (hs : P s) :
    P (settleCompose w s) := by
  unfold Machine.settleCompose
  split
  · exact h.window _ _ _ hs
  · exact hs

theorem Paging.initialDone (h : Paging ok P) (i : Nat) {s : State} (hs : P s) :
    P (initialDone i s) := by
  unfold Machine.initialDone
  split
  · exact hs
  · exact h.settleCompose _ (h.window _ _ _ hs)

theorem Paging.runAfter (h : Paging ok P) {a : After} (ha : a.within ok) {s : State} (hs : P s) :
    P (runAfter a s) := by
  cases a with
  | nothing => exact hs
  | initial l => exact h.enqueue _ _ _ (fun i hi => .inl (ha l rfl i hi)) hs
  | repaint regions =>
    refine h.enqueue _ _ _ (fun i hi => .inr ?_) hs
    obtain ⟨e, he, rfl⟩ := List.mem_map.mp hi
    exact ⟨e.2, (List.mem_filter.mp he).1⟩
  | fieldsPhase w =>
    show P (enterFields w s)
    unfold enterFields
    split
    · exact hs
    · split
      · refine h.settleCompose _ (h.enqueue _ _ _ (fun i hi => .inr ?_) (h.window _ _ _ hs))
        obtain ⟨f, hf, -⟩ := mem_visibleFields.mp hi
        exact ⟨f, hf⟩
      · exact hs

theorem mem_closeLast {a : After} {b : Burst} {l : List Burst} (h : b ∈ closeLast a l) :
    b.after = a ∨ b ∈ l := by
  induction l with
  | nil => cases h
  | cons c t ih =>
    cases t with
    | nil =>
      obtain rfl := List.mem_singleton.mp h
      exact .inl rfl
    | cons d u =>
      obtain rfl | h := List.mem_cons.mp h
      · exact .inr List.mem_cons_self
      · exact (ih h).imp_right (List.mem_cons_of_mem _)

theorem Paging.handOver (h : Paging ok P) {bursts : List Burst} {a : After}
    (hb : ∀ b ∈ bursts, b.after.within ok) (ha : a.within ok) {s : State} (hs : P s) :
    P (handOver bursts a s) := by
  obtain ⟨-, hroom, e⟩ | ⟨-, e⟩ | ⟨-, hroom, e⟩ := handOver_cases bursts a s <;> rw [e]
  · refine h.list _ _ (by rw [length_closeLast]; exact hroom) (fun b hmem => ?_) hs
    obtain e | hmem := mem_closeLast hmem
    · rw [e]; exact ha
    · exact hb b hmem
  · exact h.runAfter ha hs
  · by_cases hfull : s.cpl.bursts.length ≤ burstRoom
    · refine h.runAfter ha (h.list _ _ ?_ (fun b hmem => hb b (List.mem_of_mem_take hmem)) hs)
      rw [List.length_take]
      omega
    · rw [Nat.sub_eq_zero_of_le (by omega), List.take_zero]
      have : listBursts [] s = s := by simp [listBursts, State.modCpl]
      rw [this]
      exact h.runAfter ha hs

theorem Paging.endPage (h : Paging ok P) (w : Nat) {s : State} (hs : P s) : P (endPage w s) := by
  unfold Machine.endPage
  split
  · exact hs
  · next p _ =>
    refine h.window _ _ _ ?_
    have hpnt : P ((unlightPage p s).modPnt fun q => { q with burst := q.burst.bind (releaseBurst p) }) := by
      refine h.burst _ _ (fun b b' hb => ?_) (h.unlight _ _ hs)
      unfold releaseBurst at hb
      split at hb
      · split at hb
        · cases hb
        · obtain rfl := Option.some.inj hb
          rfl
      · obtain rfl := Option.some.inj hb
        rfl
    unfold abandonBursts
    split
    · exact h.withdraw _ _ hpnt
    · exact hpnt

theorem composeBursts_after {s : State} {w p : Nat} {b : Burst} (hb : b ∈ composeBursts s w p) :
    b.after = .nothing := by
  unfold composeBursts at hb
  obtain hb | hb := List.mem_append.mp hb
  · obtain ⟨r, -, rfl⟩ := List.mem_map.mp hb
    rfl
  · obtain ⟨e, -, rfl⟩ := List.mem_map.mp hb
    rfl

theorem After.within_nothing (ok : Nat → Prop) : After.within ok .nothing := fun _ h => by cases h
theorem After.within_fieldsPhase (ok : Nat → Prop) (w : Nat) : After.within ok (.fieldsPhase w) :=
  fun _ h => by cases h
theorem After.within_repaint (ok : Nat → Prop) (l : List Region) : After.within ok (.repaint l) :=
  fun _ h => by cases h

theorem Paging.beginCompose (h : Paging ok P) (w p : Nat) {s : State} (hs : P s) :
    P (beginCompose w p s) := by
  refine h.handOver (fun b hb => ?_) (After.within_fieldsPhase ok w) (h.window _ _ _ (h.endPage w hs))
  rw [composeBursts_after hb]
  exact After.within_nothing ok

theorem Paging.tallySkips (h : Paging ok P) (n : Nat) {s : State} (hs : P s) :
    P (tallySkips n s) := by
  induction n generalizing s with
  | zero => exact hs
  | succ n ih => exact ih (h.counts _ _ hs)

theorem Paging.selectStep (h : Paging ok P) (w i : Nat) {s : State} (hs : P s) :
    P (selectStep w i s) := by
  unfold Machine.selectStep
  dsimp only
  split
  · exact hs
  · split
    · exact h.window _ _ _ (h.tallySkips _ hs)
    · split
      · exact h.window _ _ _ (h.tallySkips _ hs)
      · split
        · exact h.window _ _ _ (h.tallySkips _ hs)
        · exact h.beginCompose _ _ (h.window _ _ _ (h.tallySkips _ hs))

theorem Paging.advance (h : Paging ok P) (w : Nat) {s : State} (hs : P s) : P (advance w s) := by
  unfold Machine.advance
  split
  · exact h.window _ _ _ hs
  · exact h.selectStep _ _ hs

theorem Paging.expireDwell (h : Paging ok P) (w : Nat) {s : State} (hs : P s) :
    P (expireDwell w s) := by
  unfold Machine.expireDwell
  split
  · exact h.window _ _ _ hs
  · exact h.advance _ hs

theorem Paging.refuse (h : Paging ok P) (kind code : Nibble) (r : Reason) (n : Station) {s : State}
    (hs : P s) : P (s.refuse kind code r n) := h.counts _ _ hs

theorem Paging.takeRelease (h : Paging ok P) (w : Nat) (s : State) (_ : w < 8) (hs : P s) :
    P (takeRelease w s) := by
  unfold Machine.takeRelease
  split
  · have hpin := h.window w unpinned s hs
    unfold resumeStep
    dsimp only
    split
    · exact h.window _ _ _ hpin
    · split
      · exact h.expireDwell _ (h.window _ _ _ hpin)
      · split
        · exact hpin
        · split
          · exact h.expireDwell _ (h.counts _ _ hpin)
          · split
            · exact hpin
            · exact h.beginCompose _ _ hpin
  · exact hs

theorem Paging.takeShow (h : Paging ok P) (n : Station) (window page : Byte) (s : State) (hs : P s) :
    P (takeShow n window page s) := by
  unfold Machine.takeShow
  split
  · split
    · exact h.refuse _ _ _ _ hs
    · split
      · exact h.refuse _ _ _ _ hs
      · unfold showTaken
        dsimp only
        split
        · exact h.window _ _ _ hs
        · exact h.beginCompose _ _ (h.window _ _ _ hs)
  · exact h.refuse _ _ _ _ hs
  · exact h.refuse _ _ _ _ hs

theorem Paging.takeRun (h : Paging ok P) (n : Station) (w : Nat) (s : State) (_ : w < 8) (hs : P s) :
    P (takeRun n w s) := by
  unfold Machine.takeRun
  split
  · exact h.refuse _ _ _ _ hs
  · split
    · split
      · exact hs
      · exact h.selectStep _ _ (h.window _ _ _ hs)
    · exact hs

theorem Paging.enqueueVisible (h : Paging ok P) (kind : PaintKind) (w : Nat) {s u : State}
    (hu : u.lay = s.lay) (hs : P u) : P (u.enqueue kind (s.visible w)) := by
  refine h.enqueue _ _ _ (fun i hi => .inr ?_) hs
  unfold State.visible at hi
  split at hi
  · cases hi
  · obtain ⟨f, hf, -⟩ := mem_visibleFields.mp hi
    exact ⟨f, hu ▸ hf⟩

theorem Paging.takeThaw (h : Paging ok P) (w : Nat) (s : State) (_ : w < 8) (hs : P s) :
    P (takeThaw w s) := by
  have hthaw : P (unfreeze w s) := by
    unfold unfreeze
    dsimp only
    split
    · exact h.enqueueVisible _ _ rfl (h.window _ _ _ hs)
    · exact h.window _ _ _ hs
  unfold Machine.takeThaw
  split
  · split
    · exact h.advance _ hthaw
    · exact hthaw
  · exact h.window _ _ _ hs
  · exact hs
  · exact hs

theorem Paging.takeOverride (h : Paging ok P) (m : OverrideMode) (w : Nat) (s : State) (_ : w < 8)
    (hs : P s) : P (takeOverride m w s) := by
  unfold Machine.takeOverride
  dsimp only
  split
  · exact h.window _ _ _ hs
  · exact h.enqueueVisible _ _ rfl (h.window _ _ _ hs)

theorem Paging.takeDwellExpiry (h : Paging ok P) (w : Nat) (s : State) (_ : w < 8) (hs : P s) :
    P (takeDwellExpiry w s) := by
  unfold Machine.takeDwellExpiry
  split
  · exact h.expireDwell _ (h.window _ _ _ hs)
  · exact hs

theorem oldRows_after {s : State} {v : Window} {b : Burst} (hb : b ∈ oldRows s v) :
    b.after = .nothing := by
  obtain ⟨k, -, rfl⟩ := List.mem_map.mp hb
  rfl

theorem Paging.takeWindow (h : Paging ok P) (n : Station) (r : WindowRecord) (s : State) (hs : P s) :
    P (takeWindow n r s) := by
  have hend (w : Nat) : P (endWindow w s) := by
    unfold endWindow
    dsimp only
    split
    · exact hs
    · refine h.handOver (fun b hb => ?_) (After.within_nothing ok) (h.window _ _ _ (h.endPage w hs))
      rw [oldRows_after hb]
      exact After.within_nothing ok
  unfold Machine.takeWindow
  split
  · exact h.refuse _ _ _ _ hs
  · split
    · exact hend _
    · split
      · exact h.refuse _ _ _ _ hs
      · unfold openWindow
        dsimp only
        split
        · exact h.window _ _ _ (hend _)
        · split
          · exact h.window _ _ _ (hend _)
          · exact h.beginCompose _ _ (h.window _ _ _ (hend _))

theorem Paging.skipReq (h : Paging ok P) (q : PaintReq) {s : State} (hs : P s) : P (skipReq q s) := by
  unfold Machine.skipReq
  split
  · exact h.initialDone _ hs
  · exact hs

theorem Paging.settleComposes (h : Paging ok P) {s : State} (hs : P s) : P (settleComposes s) := by
  have hfold (l : List Nat) (s : State) (hs : P s) :
      P (l.foldl (fun s w => Machine.settleCompose w s) s) := by
    induction l generalizing s with
    | nil => exact hs
    | cons w l ih => exact ih _ (h.settleCompose w hs)
  exact hfold _ s hs

theorem Paging.unbindCompose (h : Paging ok P) (i : Nat) {s : State} (hs : P s) :
    P (unbindCompose i s) := by
  unfold Machine.unbindCompose
  split
  · exact hs
  · exact h.window _ _ _ hs

/-! ## The bursts of layout records start nothing but what follows the last of them -/

theorem clearBurst_after (kind : BurstKind) (v : Window) (row column width : Nat) :
    (clearBurst kind v row column width).after = .nothing := rfl

theorem pageRepaints_after {s : State} {labels : Tab LabelRun} {regions : List Region} {p : Nat}
    {b : Burst} (hb : b ∈ pageRepaints s labels regions p) : b.after = .nothing := by
  unfold pageRepaints at hb
  split at hb
  · cases hb
  · obtain ⟨e, -, rfl⟩ := List.mem_map.mp hb
    rfl

theorem runBursts_after {s : State} {run : List (Nat × EntryRead)} {b : Burst}
    (hb : b ∈ runBursts s run) : b.after = .nothing := by
  unfold runBursts at hb
  obtain hb | hb := List.mem_append.mp hb
  · obtain ⟨f, -, hb⟩ := List.mem_flatMap.mp hb
    unfold unbindClear at hb
    split at hb
    · cases hb
    · split at hb
      · obtain rfl := List.mem_singleton.mp hb
        rfl
      · cases hb
  · obtain ⟨p, -, hb⟩ := List.mem_flatMap.mp hb
    exact pageRepaints_after hb

theorem Paging.commitLabel (h : Paging ok P) (i : Nat) (new : Option LabelRun) {s : State}
    (hs : P (s.modLay fun l => { l with labels := writeRunAt i new s.lay.labels })) :
    P (commitLabel i new s) := by
  refine h.handOver (fun b hb => ?_) (After.within_repaint ok _) hs
  have : b.after = .nothing := by
    obtain hb | hb := List.mem_append.mp hb
    · obtain ⟨r, -, hb⟩ := List.mem_flatMap.mp hb
      unfold oldRunBurst at hb
      split at hb
      · cases hb
      · split at hb
        · obtain rfl := List.mem_singleton.mp hb
          rfl
        · cases hb
    · obtain ⟨p, -, hb⟩ := List.mem_flatMap.mp hb
      exact pageRepaints_after hb
  rw [this]
  exact After.within_nothing ok

/-! ## FIELD records -/

/-- What the changes of a FIELD record keep: a field index bound or left without a field. -/
structure Binding (ok : Nat → Prop) (P : State → Prop) : Prop extends Paging ok P where
  unbindPaint : ∀ (i : Nat) (s : State), P s → P (s.modPnt (unbindPaint i))
  erase : ∀ (i : Nat) (s : State),
    P s → P (s.modLay fun l => { l with fields := Tab.erase i l.fields })
  insert : ∀ (i : Nat) (f : Field) (s : State), ok i → P s →
    P (s.modLay fun l => { l with fields := Tab.insert i f l.fields })

theorem Binding.foldl_changeIndex (h : Binding ok P) {run : List (Nat × EntryRead)}
    (hok : ∀ c ∈ run, ok c.1) {s : State} (hs : P s) : P (run.foldl changeIndex s) := by
  induction run generalizing s with
  | nil => exact hs
  | cons c run ih =>
    have hunbind : P (unbind c.1 s) := by
      unfold unbind
      split
      · exact hs
      · exact h.erase _ _ (h.unbindCompose _ (h.unbindPaint _ _ hs))
    refine ih (fun c hc => hok c (List.mem_cons_of_mem _ hc)) ?_
    unfold changeIndex
    split
    · exact hunbind
    · unfold bindField
      dsimp only
      have hbind (f : Field) := h.insert c.1 f _ (hok c List.mem_cons_self) hunbind
      split
      · exact hbind _
      · split
        · exact h.window _ _ _ (hbind _)
        · exact hbind _

theorem mem_fieldRun {start : Nat} {l : List EntryRead} {c : Nat × EntryRead}
    (hc : c ∈ fieldRun start l) : start ≤ c.1 ∧ c.1 < start + l.length := by
  have := List.of_mem_zip (a := c.1) (b := c.2) hc
  obtain ⟨i, hi, e⟩ := List.mem_range'.mp this.1
  omega

end Sys2Proof.Machine

/-! PROOFS. Every step keeps one highlight entry for exactly the fields whose flash is not NONE (R130). -/

namespace Sys2Proof.Machine

/-! ## Paint states changed one after another -/

/-- Paint states changed one after another read as changed once, where a second change adds nothing. -/
theorem get_foldl_put {g : Tab PaintState → Nat → Tab PaintState} {f : Nat → PaintState → PaintState}
    (hg : ∀ t i, g t i = Tab.put initialPaint i (f i (Tab.get initialPaint i t)) t)
    (hf : ∀ i p, f i (f i p) = f i p) (l : List Nat) (t : Tab PaintState) (j : Nat) :
    Tab.get initialPaint j (l.foldl g t) =
      if j ∈ l then f j (Tab.get initialPaint j t) else Tab.get initialPaint j t := by
  induction l generalizing t with
  | nil => simp
  | cons i l ih =>
    rw [List.foldl_cons, ih, hg, Tab.get_put]
    by_cases hj : j = i
    · subst hj
      by_cases hl : j ∈ l <;> simp [hl, hf]
    · simp [hj]

theorem wf_foldl_put {g : Tab PaintState → Nat → Tab PaintState} {f : Nat → PaintState → PaintState}
    (hg : ∀ t i, g t i = Tab.put initialPaint i (f i (Tab.get initialPaint i t)) t) (l : List Nat)
    {t : Tab PaintState} (h : Tab.wf initialPaint t = true) :
    Tab.wf initialPaint (l.foldl g t) = true := by
  induction l generalizing t with
  | nil => exact h
  | cons i l ih => exact ih (by rw [hg]; exact Tab.wf_put _ _ _ h)

theorem get_foldl_endFlash (l : List Nat) (t : Tab PaintState) (j : Nat) :
    Tab.get initialPaint j (l.foldl endFlash t) =
      if j ∈ l then { Tab.get initialPaint j t with flash := .none }
      else Tab.get initialPaint j t :=
  get_foldl_put (f := fun _ p => { p with flash := .none }) (fun _ _ => rfl) (fun _ _ => rfl) l t j

theorem expiredFlash_idem (m : PolicyMode) (p : PaintState) :
    expiredFlash m (expiredFlash m p) = expiredFlash m p := by
  unfold expiredFlash passedStick
  split <;> rfl

theorem get_foldl_expireField (lay : Lay) (l : List Nat) (t : Tab PaintState) (j : Nat) :
    Tab.get initialPaint j (l.foldl (expireField lay) t) =
      if j ∈ l then expiredFlash (modeOf lay j) (Tab.get initialPaint j t)
      else Tab.get initialPaint j t :=
  get_foldl_put (f := fun i p => expiredFlash (modeOf lay i) p) (fun _ _ => rfl)
    (fun _ _ => expiredFlash_idem _ _) l t j

theorem get_foldl_clearPending (l : List Nat) (t : Tab PaintState) (j : Nat) :
    Tab.get initialPaint j (l.foldl clearPending t) =
      if j ∈ l then { Tab.get initialPaint j t with pending := none }
      else Tab.get initialPaint j t :=
  get_foldl_put (f := fun _ p => { p with pending := none }) (fun _ _ => rfl) (fun _ _ => rfl) l t j

/-! ## The list -/

theorem listed_iff (i : Nat) (hs : List Highlight) :
    listed i hs = true ↔ i ∈ hs.map Highlight.index := by
  simp [listed]

/-- With no field listed twice, the fields that one part of the list holds are those it does not hold
otherwise. -/
theorem mem_index_filter {hs : List Highlight} (hn : (hs.map Highlight.index).Nodup)
    (q : Highlight → Bool) (i : Nat) :
    i ∈ (hs.filter fun h => !q h).map Highlight.index ↔
      i ∈ hs.map Highlight.index ∧ i ∉ (hs.filter q).map Highlight.index := by
  have hinj := List.inj_on_of_nodup_map hn
  simp only [List.mem_map, List.mem_filter, not_exists, not_and, Bool.not_eq_true']
  constructor
  · rintro ⟨h, ⟨hmem, hq⟩, rfl⟩
    refine ⟨⟨h, hmem, rfl⟩, fun g ⟨hg, hgq⟩ e => ?_⟩
    rw [hinj hg hmem e, hq] at hgq
    cases hgq
  · rintro ⟨⟨h, hmem, rfl⟩, hout⟩
    refine ⟨h, ⟨hmem, ?_⟩, rfl⟩
    by_contra hq
    exact hout h ⟨hmem, by simpa using hq⟩ rfl

theorem nodup_index_filter {hs : List Highlight} (hn : (hs.map Highlight.index).Nodup)
    (q : Highlight → Bool) : ((hs.filter q).map Highlight.index).Nodup :=
  hn.sublist (List.filter_sublist.map _)

theorem placeHighlight_index (now : Sweep) (h : Highlight) (hs : List Highlight) :
    ((placeHighlight now h hs).map Highlight.index).Perm (h.index :: hs.map Highlight.index) := by
  induction hs with
  | nil => exact List.Perm.refl _
  | cons g t ih =>
    unfold placeHighlight
    split
    · exact List.Perm.refl _
    · exact (ih.cons g.index).trans (List.Perm.swap _ _ _)

/-- The flashes and the list agree. -/
def Pnt.flashesListed (p : Pnt) : Prop :=
  (p.highlights.map Highlight.index).Nodup ∧
    ∀ i, (Tab.get initialPaint i p.states).flash ≠ .none ↔ i ∈ p.highlights.map Highlight.index

/-- The flashes and the list agree but for field i, which is not listed. -/
def Pnt.flashesListedBut (i : Nat) (p : Pnt) : Prop :=
  (p.highlights.map Highlight.index).Nodup ∧ i ∉ p.highlights.map Highlight.index ∧
    ∀ j, j ≠ i →
      ((Tab.get initialPaint j p.states).flash ≠ .none ↔ j ∈ p.highlights.map Highlight.index)

theorem flashesListed_iff (s : State) : s.flashesListed ↔ s.pnt.flashesListed := by
  simp only [State.flashesListed, Pnt.flashesListed, listed_iff]
  rfl

theorem State.flashesListed_congr {s t : State} (hh : t.pnt.highlights = s.pnt.highlights)
    (hs : t.pnt.states = s.pnt.states) (h : s.flashesListed) : t.flashesListed := by
  rw [flashesListed_iff] at h ⊢
  unfold Pnt.flashesListed at h ⊢
  rwa [hh, hs]

/-- Part of the list goes with the flashes of its fields. -/
theorem Pnt.flashesListed.part {p : Pnt} (h : p.flashesListed) (q : Highlight → Bool)
    {states : Tab PaintState}
    (hs : ∀ j, (Tab.get initialPaint j states).flash =
      if j ∈ (p.highlights.filter q).map Highlight.index then .none
      else (Tab.get initialPaint j p.states).flash) :
    { p with highlights := p.highlights.filter (fun h => !q h), states := states }.flashesListed := by
  obtain ⟨hn, hl⟩ := h
  refine ⟨nodup_index_filter hn _, fun j => ?_⟩
  simp only [mem_index_filter hn, hs, ← hl]
  split
  · next hj => simp [hj]
  · next hj => simp [hj]

theorem Pnt.flashesListed.unlisted {p : Pnt} (h : p.flashesListed) (i : Nat) :
    { p with highlights := unlist i p.highlights }.flashesListedBut i := by
  obtain ⟨hn, hl⟩ := h
  have hmem (j : Nat) : j ∈ (unlist i p.highlights).map Highlight.index ↔
      j ∈ p.highlights.map Highlight.index ∧ j ≠ i := by
    simp only [unlist, List.mem_map, List.mem_filter, decide_eq_true_eq]
    constructor
    · rintro ⟨g, ⟨hg, hgi⟩, rfl⟩
      exact ⟨⟨g, hg, rfl⟩, hgi⟩
    · rintro ⟨⟨g, hg, rfl⟩, hgi⟩
      exact ⟨g, ⟨hg, hgi⟩, rfl⟩
  refine ⟨nodup_index_filter hn _, fun hi => ((hmem i).mp hi).2 rfl, fun j hj => ?_⟩
  rw [hl]
  exact ⟨fun h => (hmem j).mpr ⟨h, hj⟩, fun h => ((hmem j).mp h).1⟩

theorem Pnt.flashesListed.but {p : Pnt} (h : p.flashesListed) {i : Nat}
    (hi : i ∉ p.highlights.map Highlight.index) : p.flashesListedBut i :=
  ⟨h.1, hi, fun j _ => h.2 j⟩

theorem Pnt.flashesListed.expireHead {p : Pnt} (l : Lay) (h : p.flashesListed) :
    (Machine.expireHead l p).flashesListed := by
  unfold Machine.expireHead
  split
  · exact h
  · next g t hp =>
    obtain ⟨hn, hl⟩ := h
    simp only [hp, List.map_cons, List.nodup_cons, List.mem_cons] at hn hl
    refine ⟨hn.2, fun j => ?_⟩
    unfold expireField
    rw [Tab.get_put]
    split
    · next hj => simpa [hj, expiredFlash] using hn.1
    · next hj => rw [hl, or_iff_right hj]

/-- Room is made at the head where the field is not listed. -/
theorem Pnt.flashesListed.makeRoom {p : Pnt} (l : Lay) (i : Nat) (h : p.flashesListed) :
    (Machine.makeRoom l i p).flashesListedBut i := by
  unfold Machine.makeRoom
  split
  · exact h.unlisted i
  · next hi =>
    rw [listed_iff] at hi
    split
    · exact h.but hi
    · refine (h.expireHead l).but fun hmem => hi ?_
      unfold Machine.expireHead at hmem
      split at hmem
      · exact hmem
      · next hp =>
        rw [hp]
        exact List.mem_cons_of_mem _ hmem

theorem Pnt.flashesListedBut.place {p : Pnt} {i : Nat} (h : p.flashesListedBut i) (now due : Sweep)
    {f : PaintState → PaintState} (hf : ∀ q, (f q).flash ≠ .none) :
    { p with
      highlights := placeHighlight now { index := i, due := due } p.highlights
      states := Tab.put initialPaint i (f (Tab.get initialPaint i p.states)) p.states }.flashesListed := by
  obtain ⟨hn, hi, hl⟩ := h
  have hperm := placeHighlight_index now { index := i, due := due } p.highlights
  refine ⟨hperm.nodup_iff.mpr (List.nodup_cons.mpr ⟨hi, hn⟩), fun j => ?_⟩
  rw [hperm.mem_iff, List.mem_cons, Tab.get_put]
  by_cases hj : j = i
  · simp [hj, hf]
  · rw [if_neg hj, hl j hj, or_iff_right hj]

theorem Pnt.flashesListedBut.settle {p : Pnt} {i : Nat} (h : p.flashesListedBut i)
    {f : PaintState → PaintState} (hf : ∀ q, (f q).flash = .none) :
    { p with
      states := Tab.put initialPaint i (f (Tab.get initialPaint i p.states)) p.states }.flashesListed := by
  obtain ⟨hn, hi, hl⟩ := h
  refine ⟨hn, fun j => ?_⟩
  rw [Tab.get_put]
  by_cases hj : j = i
  · simp [hj, hf, hi]
  · rw [if_neg hj, hl j hj]

/-- A paint state may change where its flash stands. -/
theorem flashesListed_modPaint {s : State} (h : s.flashesListed) (i : Nat)
    {f : PaintState → PaintState} (hf : ∀ q, (f q).flash = q.flash) :
    (s.modPaint i f).flashesListed := by
  rw [flashesListed_iff] at h ⊢
  refine ⟨h.1, fun j => ?_⟩
  have hpaint := State.paintState_modPaint s i j f
  unfold State.paintState at hpaint
  rw [hpaint]
  split
  · next hj =>
    subst hj
    rw [hf]
    exact h.2 j
  · exact h.2 j

theorem setFlash_keeps {s : State} (h : s.flashesListed) (i : Nat) {f : Flash} (hf : f ≠ .none)
    (hold : Nat) : (setFlash i f hold s).flashesListed := by
  rw [flashesListed_iff] at h ⊢
  exact (h.makeRoom s.lay i).place s.now _ (f := fun p => { p with flash := f }) (fun _ => hf)

theorem flashOf_ne {d : Direction} {hold : Nat} {touch : Bool} {f : Flash}
    (h : flashOf d hold touch = some f) : f ≠ .none := by
  unfold flashOf at h
  split at h
  · cases h
  · split at h
    · cases h; simp
    · cases h; simp
    · split at h
      · cases h; simp
      · cases h
    · cases h

theorem commitFlash_eq_some {s : State} {b : PaintBurst} {f : Flash} (h : commitFlash s b = some f) :
    b.kind = .ordinary ∧ b.textKind.isOwn = true ∧ b.released = false ∧
      (paintSite s b.index).isSome = true ∧ ordinaryFlash b = some f := by
  unfold commitFlash at h
  split at h
  · next hc =>
    simp only [Bool.and_eq_true, decide_eq_true_eq, Bool.not_eq_true'] at hc
    obtain ⟨⟨⟨hk, ht⟩, hr⟩, hs⟩ := hc
    exact ⟨hk, ht, hr, hs, h⟩
  · cases h

theorem ordinaryFlash_ne {b : PaintBurst} {f : Flash} (h : ordinaryFlash b = some f) : f ≠ .none := by
  unfold ordinaryFlash at h
  split at h
  · cases h
  · exact flashOf_ne h
  · cases h
  · exact flashOf_ne h
  · cases h

/-- A commit that starts afresh leaves no flash, any other leaves the flash it finds. -/
theorem committed_flash (now : Sweep) (b : PaintBurst) (p : PaintState) :
    (committed now b p).flash = if b.kind.startsAfresh then .none else p.flash := by
  unfold committed painted
  cases hk : b.kind with
  | initial => simp [PaintKind.startsAfresh]
  | thaw => simp [PaintKind.startsAfresh]
  | ordinary =>
    simp only [PaintKind.startsAfresh]
    split <;> rfl
  | repaint => simp [PaintKind.startsAfresh]

/-! ## The end of a page -/

/-- What the end of a page does to the flashes: the entries of the page's fields go, their flashes with
them (R133). -/
theorem unlightPage_pnt (p : Nat) (s : State) :
    (unlightPage p s).pnt.highlights =
        s.pnt.highlights.filter (fun h => !onPage s.lay.fields p h.index) ∧
      (∀ i, (unlightPage p s).paintState i =
        if onPage s.lay.fields p i = true ∧ listed i s.pnt.highlights = true then
          { s.paintState i with flash := .none }
        else s.paintState i) ∧
      (unlightPage p s).pnt.queue = s.pnt.queue ∧ (unlightPage p s).pnt.burst = s.pnt.burst := by
  refine ⟨rfl, fun i => ?_, rfl, rfl⟩
  have hmem : i ∈ (s.pnt.highlights.filter fun h => onPage s.lay.fields p h.index).map
      Highlight.index ↔ onPage s.lay.fields p i = true ∧ listed i s.pnt.highlights = true := by
    rw [listed_iff]
    simp only [List.mem_map, List.mem_filter]
    constructor
    · rintro ⟨h, ⟨hmem, hp⟩, rfl⟩
      exact ⟨hp, h, hmem, rfl⟩
    · rintro ⟨hp, h, hmem, rfl⟩
      exact ⟨h, ⟨hmem, hp⟩, rfl⟩
  exact (get_foldl_endFlash _ _ _).trans (by simp only [hmem]; rfl)

theorem unlightPage_keeps {s : State} (p : Nat) (h : s.flashesListed) :
    (unlightPage p s).flashesListed := by
  rw [flashesListed_iff] at h ⊢
  refine h.part (fun h => onPage s.lay.fields p h.index) fun j => ?_
  rw [get_foldl_endFlash]
  split <;> rfl

theorem expireHighlights_keeps (s : State) (h : s.flashesListed) :
    (expireHighlights s).flashesListed := by
  rw [flashesListed_iff] at h ⊢
  refine h.part (fun h => reached s.now h.due) fun j => ?_
  rw [get_foldl_expireField]
  split <;> rfl

theorem releasePending_keeps (s : State) (h : s.flashesListed) :
    (releasePending s).flashesListed := by
  rw [flashesListed_iff] at h ⊢
  refine ⟨h.1, fun i => ?_⟩
  have := get_foldl_clearPending (duePaints s) s.pnt.states i
  show (Tab.get initialPaint i ((duePaints s).foldl clearPending s.pnt.states)).flash ≠ .none ↔ _
  rw [this]
  split <;> exact h.2 i

theorem unbindPaint_keeps (i : Nat) (s : State) (h : s.flashesListed) :
    (s.modPnt (unbindPaint i)).flashesListed := by
  rw [flashesListed_iff] at h ⊢
  obtain ⟨hn, hi, hl⟩ := h.unlisted i
  refine ⟨hn, fun j => ?_⟩
  have herase : Tab.get initialPaint j (Tab.erase i s.pnt.states) =
      if j = i then initialPaint else Tab.get initialPaint j s.pnt.states := by
    unfold Tab.get
    rw [Tab.look_erase]
    split <;> rfl
  show (Tab.get initialPaint j (Tab.erase i s.pnt.states)).flash ≠ .none ↔ _
  rw [herase]
  split
  · next hj =>
    subst hj
    exact iff_of_false (by simp [initialPaint]) hi
  · next hj => exact hl j hj

theorem flashesListed_binding : Binding (fun _ => True) State.flashesListed where
  window _ _ _ := State.flashesListed_congr rfl rfl
  counts _ _ := State.flashesListed_congr rfl rfl
  enqueue _ _ _ _ := State.flashesListed_congr rfl rfl
  list _ _ _ _ := State.flashesListed_congr rfl rfl
  unlight p _ := unlightPage_keeps p
  burst _ _ _ := State.flashesListed_congr rfl rfl
  withdraw _ _ := State.flashesListed_congr rfl rfl
  unbindPaint := unbindPaint_keeps
  erase _ _ := State.flashesListed_congr rfl rfl
  insert _ _ _ _ := State.flashesListed_congr rfl rfl

theorem After.within_true (a : After) : a.within fun _ => True := fun _ _ _ _ => trivial

theorem takeField_keeps_flashes (n : Station) (r : FieldRecord) (s : State) (h : s.flashesListed) :
    (takeField n r s).flashesListed := by
  have hrefuse (reason : Reason) : (refuseRecord 1 reason n s).flashesListed :=
    State.flashesListed_congr rfl rfl h
  unfold takeField
  split
  · exact hrefuse _
  · next l _ =>
    dsimp only
    split
    · exact hrefuse _
    · split
      · exact hrefuse _
      · split
        · exact hrefuse _
        · have hrun := flashesListed_binding.foldl_changeIndex
            (run := fieldRun (fieldStart s.lay r) l) (fun _ _ => trivial) h
          refine flashesListed_binding.settleComposes (flashesListed_binding.handOver
            (fun b _ => After.within_true _) (After.within_true _) ?_)
          rw [settleKeys_frame]
          exact hrun

theorem takeLabel_keeps_flashes (n : Station) (r : LabelRecord) (s : State) (h : s.flashesListed) :
    (takeLabel n r s).flashesListed := by
  unfold takeLabel
  split
  · exact State.flashesListed_congr rfl rfl h
  · split
    · exact State.flashesListed_congr rfl rfl h
    · exact flashesListed_binding.commitLabel _ _ (State.flashesListed_congr rfl rfl h)

/-! ## The Painter -/

theorem servePaint_keeps_flashes (s : State) (h : s.flashesListed) :
    (servePaint s).flashesListed := by
  unfold servePaint
  split
  · next q t _ _ =>
    have hq : (s.modPnt fun p => { p with queue := t }).flashesListed :=
      State.flashesListed_congr rfl rfl h
    unfold serveReq
    split
    · exact flashesListed_binding.skipReq _ hq
    · split
      · exact flashesListed_binding.skipReq _ (State.flashesListed_congr rfl rfl hq)
      · unfold paintReq
        split
        · exact flashesListed_modPaint hq _ fun _ => rfl
        · exact State.flashesListed_congr rfl rfl hq
  · exact h
  · exact h

theorem commitBurst_keeps_flashes {s : State} (b : PaintBurst) (h : s.flashesListed) :
    (commitBurst b s).flashesListed := by
  have hdone {u : State} (hu : u.flashesListed) :
      (if b.kind = .initial then initialDone b.index u else u).flashesListed := by
    split
    · exact flashesListed_binding.initialDone _ hu
    · exact hu
  unfold commitBurst
  dsimp only
  refine hdone ?_
  cases hk : b.kind.startsAfresh with
  | true =>
    have hnone : commitFlash s b = none := by
      cases hc : commitFlash s b with
      | none => rfl
      | some f =>
        rw [(commitFlash_eq_some hc).1] at hk
        cases hk
    rw [hnone]
    rw [flashesListed_iff] at h ⊢
    exact (h.unlisted b.index).settle fun q => by rw [committed_flash, hk]; rfl
  | false =>
    have hcommit : (s.modPaint b.index (committed s.now b)).flashesListed :=
      flashesListed_modPaint h _ fun q => by rw [committed_flash, hk]; rfl
    simp only [Bool.false_eq_true, if_false]
    split
    · exact hcommit
    · next f hf => exact setFlash_keeps hcommit _ (ordinaryFlash_ne (commitFlash_eq_some hf).2.2.2.2) _

theorem commitPaint_keeps_flashes (s : State) (h : s.flashesListed) :
    (commitPaint s).flashesListed := by
  unfold commitPaint
  split
  · exact h
  · split
    · dsimp only
      split
      · exact State.flashesListed_congr rfl rfl h
      · exact commitBurst_keeps_flashes _ (State.flashesListed_congr rfl rfl h)
    · exact h

theorem completeWrite_keeps_flashes (s : State) (h : s.flashesListed) :
    (completeWrite s).flashesListed := by
  unfold completeWrite
  split
  · exact h
  · unfold tellWritten
    split
    · exact State.flashesListed_congr rfl rfl h
    · exact State.flashesListed_congr rfl rfl h
    · exact State.flashesListed_congr rfl rfl h
    · exact flashesListed_binding.runAfter (After.within_true _) (State.flashesListed_congr rfl rfl h)

/-- A grant marks the painter's burst, if it is the one granted, and changes no more of the Painter. -/
theorem grantNext_pnt (s : State) :
    (grantNext s).pnt = { s.pnt with burst := (grantNext s).pnt.burst } := by
  unfold grantNext
  split
  · rfl
  · rfl
  · split
    · unfold grantCrawl
      split <;> rfl
    · unfold grantByTurn
      split
      · rfl
      · rfl
      · split <;> rfl
      · split
        · unfold grantStatus
          split <;> rfl
        · rfl

/-- An apply enqueues the fields that follow from its touched codes, and changes no more of the Painter
(R72). -/
theorem commitApply_pnt (k : Key) (a : Applied) (s : State) :
    (commitApply k a s).pnt =
      { s.pnt with
        queue := enqueueAll .ordinary (fieldsToPaint s.lay k a.touched) s.pnt.queue } := by
  have hask (u : State) : (if a.asked then askRefresh k u else u).pnt = u.pnt := by
    split
    · exact read_of_frame State.pnt (askRefresh_frame k u) rfl
    · rfl
  have hgap (u : State) : (if a.gap then u.countGap else u).pnt = u.pnt := by split <;> rfl
  unfold commitApply
  dsimp only
  split
  · rw [State.enqueue, State.modPnt_pnt, hask, hgap]; rfl
  · rw [State.enqueue, State.modPnt_pnt, dropRefresh, State.modDir_pnt, hask, hgap]; rfl

/-- A take of the head entry changes the Painter by requests alone. -/
theorem takeHead_pnt (s : State) :
    ∃ l, (takeHead s).pnt = { s.pnt with queue := enqueueAll .ordinary l s.pnt.queue } := by
  unfold takeHead
  split
  · exact ⟨[], rfl⟩
  · split
    · unfold takeEntry
      split
      · exact ⟨[], rfl⟩
      · split
        · split
          · exact ⟨[], rfl⟩
          · exact ⟨_, commitApply_pnt ..⟩
        · exact ⟨[], rfl⟩
    · exact ⟨[], rfl⟩

theorem State.flashesListed_of_pnt {s t : State} (hp : t.pnt = s.pnt) : s.flashesListed → t.flashesListed :=
  State.flashesListed_congr (by rw [hp]) (by rw [hp])

theorem flashesListed_nil {s : State} (h : s.pnt = resetPnt) : s.flashesListed := by
  rw [flashesListed_iff, h]
  exact ⟨List.nodup_nil, fun i => by simp [resetPnt, Tab.get, initialPaint]⟩

theorem flashesListed_kept : Kept State.flashesListed where
  link _ _ _ := State.flashesListed_of_pnt rfl
  counts _ _ := State.flashesListed_of_pnt rfl
  origin _ _ := State.flashesListed_of_pnt rfl
  port _ _ _ _ _ := State.flashesListed_of_pnt rfl
  tables _ _ _ _ _ _ := State.flashesListed_of_pnt rfl
  reset _ _ := State.flashesListed_of_pnt rfl
  released _ _ _ _ := flashesListed_nil rfl
  sweep m s := State.flashesListed_of_pnt (read_of_frame State.pnt (sweepStart_frame m s) rfl)
  deadlines s := State.flashesListed_of_pnt (read_of_frame State.pnt (runRefreshPass_frame true s) rfl)
  status s := State.flashesListed_of_pnt (read_of_frame State.pnt (offerStatus_frame s) rfl)
  report n s := State.flashesListed_of_pnt (read_of_frame State.pnt (reportStation_frame n s) rfl)
  presence n k s := State.flashesListed_of_pnt (read_of_frame State.pnt (takePresence_frame n k s) rfl)
  mark n m s := State.flashesListed_of_pnt (read_of_frame State.pnt (setMark_frame n m s) rfl)
  tick n b s := State.flashesListed_of_pnt (read_of_frame State.pnt (takeTick_frame n b s) rfl)
  apply s := by
    obtain ⟨l, hl⟩ := takeHead_pnt s
    exact State.flashesListed_congr (by rw [hl]) (by rw [hl])
  stale _ := State.flashesListed_of_pnt rfl
  show_ := flashesListed_binding.takeShow
  release := flashesListed_binding.takeRelease
  run := flashesListed_binding.takeRun
  halt _ _ _ := State.flashesListed_of_pnt rfl
  freeze _ _ _ := State.flashesListed_of_pnt rfl
  thaw := flashesListed_binding.takeThaw
  override := flashesListed_binding.takeOverride
  dwell := flashesListed_binding.takeDwellExpiry
  clear _ _ := flashesListed_nil rfl
  field := takeField_keeps_flashes
  label := takeLabel_keeps_flashes
  window := flashesListed_binding.takeWindow
  prog n r s := State.flashesListed_of_pnt (read_of_frame State.pnt (takeProg_frame n r s) rfl)
  limit _ _ := State.flashesListed_of_pnt rfl
  handoff n b s := State.flashesListed_of_pnt (read_of_frame State.pnt (takeHandoff_frame n b s) rfl)
  crawlText b s := State.flashesListed_of_pnt (read_of_frame State.pnt (takeCrawlText_frame b s) rfl)
  flush s := State.flashesListed_of_pnt (read_of_frame State.pnt (flushCrawl_frame s) rfl)
  crawl s := State.flashesListed_of_pnt (read_of_frame State.pnt (takeStep_frame s) rfl)
  paint := servePaint_keeps_flashes
  commit := commitPaint_keeps_flashes
  pending := releasePending_keeps
  highlights := expireHighlights_keeps
  grant s := State.flashesListed_congr (by rw [grantNext_pnt]) (by rw [grantNext_pnt])
  transfer := completeWrite_keeps_flashes

/-- Settles O58: each block's effect keeps the flashes listed, and so does every step. -/
theorem flashesStayListed : Obligations.FlashesStayListed := fun _ _ hs he =>
  flashesListed_kept.step (fun _ _ => State.flashesListed_of_pnt rfl) hs he

end Sys2Proof.Machine

/-! PROOFS. Every step keeps the queues and lists within their rooms, the paint queue without a field
twice, the intake queue without two open entries of one key, and the plane, the paint states and the
entries' items canonical (R15, R41, R69, R116, R130, R179). -/

namespace Sys2Proof.Machine

/-! ## What is said of each block -/

/-- The intake queue has room, no two open entries of one key, and canonical items. -/
def intakeSound (q : List IntakeEntry) : Prop :=
  q.length ≤ intakeRoom ∧ ((q.filter IntakeEntry.isOpen).map IntakeEntry.key).Nodup ∧
    ∀ e ∈ q, Tab.rising e.items = true

/-- The highlight list has room, the paint queue holds no field twice, the states are canonical. -/
def Pnt.sound (p : Pnt) : Prop :=
  p.highlights.length ≤ highlightRoom ∧ (p.queue.map PaintReq.index).Nodup ∧
    Tab.wf initialPaint p.states = true

/-- The burst list has room and the plane is canonical. -/
def Cpl.sound (c : Cpl) : Prop := c.bursts.length ≤ burstRoom ∧ Tab.wf resetCell c.plane = true

theorem buffersSound_iff (s : State) :
    s.buffersSound ↔ s.lnk.txq.length ≤ txRoom ∧ s.dir.refresh.length ≤ refreshRoom ∧
      intakeSound s.inq ∧ s.pnt.sound ∧ s.cpl.sound := by
  simp only [State.buffersSound, State.withinRooms, State.queueOnce, State.oneOpenEntry,
    State.canonical, intakeSound, Pnt.sound, Cpl.sound]
  tauto

/-- A change keeps the buffers sound where it keeps each block's part. -/
theorem State.buffersSound.update {s t : State} (h : s.buffersSound)
    (hlnk : s.lnk.txq.length ≤ txRoom → t.lnk.txq.length ≤ txRoom)
    (hdir : s.dir.refresh.length ≤ refreshRoom → t.dir.refresh.length ≤ refreshRoom)
    (hinq : intakeSound s.inq → intakeSound t.inq) (hpnt : s.pnt.sound → t.pnt.sound)
    (hcpl : s.cpl.sound → t.cpl.sound) : t.buffersSound := by
  rw [buffersSound_iff] at h ⊢
  obtain ⟨h1, h2, h3, h4, h5⟩ := h
  exact ⟨hlnk h1, hdir h2, hinq h3, hpnt h4, hcpl h5⟩

/-- The blocks that a frame equation leaves as they were keep what is said of them. -/
theorem keep_of_frame {α : Type} {Q : α → Prop} (g : State → α) {s t u : State} (h : t = u)
    (hu : g u = g s) (hs : Q (g s)) : Q (g t) := by
  rwa [read_of_frame g h hu]

theorem keep_txq {s t u : State} (h : t = u) (hu : u.lnk.txq = s.lnk.txq)
    (hs : s.lnk.txq.length ≤ txRoom) : t.lnk.txq.length ≤ txRoom := by
  rwa [h, hu]

theorem keep_refresh {s t u : State} (h : t = u) (hu : u.dir.refresh = s.dir.refresh)
    (hs : s.dir.refresh.length ≤ refreshRoom) : t.dir.refresh.length ≤ refreshRoom := by
  rwa [h, hu]

/-! ## The transmit queue and the refresh requests -/

theorem txAdd_room {s : State} (hf : s.txFree = true) (p : Parcel) :
    (s.txAdd p).lnk.txq.length ≤ txRoom := by
  simp only [State.txFree, decide_eq_true_eq] at hf
  simp only [State.txAdd, State.modLnk_lnk, List.length_append, List.length_singleton]
  omega

theorem offerStatus_room {s : State} (h : s.lnk.txq.length ≤ txRoom) :
    (offerStatus s).lnk.txq.length ≤ txRoom := by
  unfold offerStatus
  split
  · next hf => exact txAdd_room (by simpa using (Bool.and_eq_true_iff.mp hf).2) _
  · exact h

theorem handleRefresh_room (e : RefreshEntry) {s : State} (h : s.lnk.txq.length ≤ txRoom) :
    (handleRefresh e s).2.lnk.txq.length ≤ txRoom := by
  unfold handleRefresh
  dsimp only
  split
  · split
    · exact txAdd_room ‹_› _
    · exact h
  · split
    · split
      · exact h
      · split
        · exact txAdd_room ‹_› _
        · exact h
    · exact h

theorem refreshPass_room (deadlines : Bool) (l : List RefreshEntry) {s : State}
    (h : s.lnk.txq.length ≤ txRoom) :
    (refreshPass deadlines l s).2.lnk.txq.length ≤ txRoom := by
  induction l generalizing s with
  | nil => exact h
  | cons e l ih =>
    unfold refreshPass
    split
    · exact ih h
    · split
      · exact h
      · exact ih (handleRefresh_room e h)

theorem refreshPass_length (deadlines : Bool) (l : List RefreshEntry) (s : State) :
    (refreshPass deadlines l s).1.length ≤ l.length := by
  induction l generalizing s with
  | nil => exact Nat.le_refl _
  | cons e l ih =>
    unfold refreshPass
    split
    · exact Nat.succ_le_succ (ih s)
    · split
      · exact Nat.le_refl _
      · have hone (o : Option RefreshEntry) : o.toList.length ≤ 1 := by cases o <;> simp
        have := ih (handleRefresh e s).2
        have := hone (handleRefresh e s).1
        simp only [List.length_append, List.length_cons]
        omega

theorem runRefreshPass_buffers (deadlines : Bool) {s : State} (h : s.buffersSound) :
    (runRefreshPass deadlines s).buffersSound := by
  have hframe := runRefreshPass_frame deadlines s
  refine h.update (refreshPass_room deadlines _) (fun hr => ?_)
    (keep_of_frame State.inq hframe rfl) (keep_of_frame State.pnt hframe rfl)
    (keep_of_frame State.cpl hframe rfl)
  exact (refreshPass_length deadlines s.dir.refresh s).trans hr

theorem sweepStart_buffers (m : MarkClass) (s : State) (h : s.buffersSound) :
    (sweepStart m s).buffersSound := by
  refine runRefreshPass_buffers false (h.update id (fun hr => ?_) id id id)
  simpa [lapSweep, crawlSweep, countDwells] using hr

theorem askRefresh_room (k : Key) {s : State} (h : s.dir.refresh.length ≤ refreshRoom) :
    (askRefresh k s).dir.refresh.length ≤ refreshRoom := by
  unfold askRefresh
  split
  · exact h
  · split
    · exact h
    · next hfull =>
      simp only [Bool.or_eq_true, decide_eq_true_eq, not_or, not_le] at hfull
      simp only [State.modDir_dir, List.length_append, List.length_singleton]
      omega

theorem dropRefresh_length (k : Key) (s : State) :
    (dropRefresh k s).dir.refresh.length ≤ s.dir.refresh.length := List.length_filter_le _ _

theorem setRecord_refresh (r : Record) (s : State) : (s.setRecord r).dir.refresh = s.dir.refresh := rfl

theorem switchSources_room (gone : Station) {s : State} (h : s.dir.refresh.length ≤ refreshRoom) :
    (switchSources gone s).dir.refresh.length ≤ refreshRoom := by
  have hone (k : Key) (s : State) (h : s.dir.refresh.length ≤ refreshRoom) :
      (switchOne gone s k).dir.refresh.length ≤ refreshRoom := by
    unfold switchOne
    split
    · exact h
    · split
      · have hdrop := (dropRefresh_length k s).trans h
        dsimp only
        split
        · exact askRefresh_room k hdrop
        · exact hdrop
      · split <;> exact h
  unfold switchSources
  generalize switchOrder s.dir = l
  induction l generalizing s with
  | nil => exact h
  | cons k l ih => exact ih (hone k s h)

theorem settleMarks_refresh (s : State) (k : Key) :
    (settleMarks s k).dir.refresh = s.dir.refresh := by
  unfold settleMarks
  split <;> rfl

theorem setMark_refresh (n : Station) (m : Option Key) (s : State) :
    (setMark n m s).dir.refresh = s.dir.refresh := by
  have hfold (l : List Key) (s : State) : (l.foldl settleMarks s).dir.refresh = s.dir.refresh := by
    induction l generalizing s with
    | nil => rfl
    | cons k l ih => exact (ih _).trans (settleMarks_refresh s k)
  exact hfold _ _

theorem stationGone_room (n : Station) {s : State} (h : s.dir.refresh.length ≤ refreshRoom) :
    (stationGone n s).dir.refresh.length ≤ refreshRoom := by
  unfold stationGone releaseOrigin
  rw [State.modPtb_dir, setMark_refresh]
  exact switchSources_room n h

theorem settleKeys_length (keys : List Key) (s : State) :
    (settleKeys keys s).dir.refresh.length ≤ s.dir.refresh.length := by
  unfold settleKeys
  induction keys generalizing s with
  | nil => exact Nat.le_refl _
  | cons k keys ih =>
    refine (ih _).trans ?_
    unfold settleKey
    dsimp only
    split
    · split <;> exact Nat.le_refl _
    · split
      · exact dropRefresh_length k s
      · exact Nat.le_refl _

theorem dropNotice_room (k : Key) {s : State} (h : s.dir.refresh.length ≤ refreshRoom) :
    (dropNotice k s).dir.refresh.length ≤ refreshRoom := by
  unfold dropNotice
  split
  · exact h
  · exact askRefresh_room k h

theorem commitApply_room (k : Key) (a : Applied) {s : State}
    (h : s.dir.refresh.length ≤ refreshRoom) :
    (commitApply k a s).dir.refresh.length ≤ refreshRoom := by
  have hgap (u : State) : (if a.gap then u.countGap else u).dir = u.dir := by split <;> rfl
  have hask (u : State) (hu : u.dir.refresh.length ≤ refreshRoom) :
      (if a.asked then askRefresh k u else u).dir.refresh.length ≤ refreshRoom := by
    split
    · exact askRefresh_room k hu
    · exact hu
  unfold commitApply
  dsimp only
  rw [State.enqueue_dir]
  split
  · exact hask _ (by rw [hgap]; exact h)
  · exact (dropRefresh_length k _).trans (hask _ (by rw [hgap]; exact h))

theorem takeHead_room {s : State} (h : s.dir.refresh.length ≤ refreshRoom) :
    (takeHead s).dir.refresh.length ≤ refreshRoom := by
  unfold takeHead
  split
  · exact h
  · split
    · unfold takeEntry
      split
      · exact h
      · split
        · split
          · exact h
          · exact commitApply_room _ _ h
        · exact h
    · exact h

/-! ## The intake queue -/

theorem rising_writeItems (b : TickBody) {items : Tab Received} (h : Tab.rising items = true) :
    Tab.rising (writeItems b items) = true := by
  unfold writeItems
  generalize tickItems b = l
  induction l generalizing items with
  | nil => exact h
  | cons e l ih =>
    refine ih ?_
    unfold writeItem
    split
    · exact h
    · exact Tab.rising_insert _ _ h

/-- A tick merged leaves the entry its key, and its items canonical. -/
theorem mergeTick_keeps {b : TickBody} {e e' : IntakeEntry} (h : mergeTick b e = some e') :
    e'.key = e.key ∧ (Tab.rising e.items = true → Tab.rising e'.items = true) := by
  have hmerge (x : IntakeEntry) (hk : x.key = e.key) (hi : x.items = e.items) :
      (finishImage b (mergeItems b (startImage b x))).key = e.key ∧
        (Tab.rising e.items = true →
          Tab.rising (finishImage b (mergeItems b (startImage b x))).items = true) := by
    have hfinish (y : IntakeEntry) : (finishImage b y).key = y.key ∧ (finishImage b y).items = y.items := by
      unfold finishImage
      split <;> exact ⟨rfl, rfl⟩
    rw [(hfinish _).1, (hfinish _).2]
    unfold startImage mergeItems
    split
    · exact ⟨hk, fun _ => rising_writeItems b rfl⟩
    · exact ⟨hk, fun hr => rising_writeItems b (hi ▸ hr)⟩
  unfold mergeTick at h
  split at h
  · cases h
  · obtain rfl := Option.some.inj h
    exact hmerge _ rfl rfl
  · obtain rfl := Option.some.inj h
    exact hmerge _ rfl rfl

theorem openEntry_eq_some {k : Key} {q : List IntakeEntry} {e : IntakeEntry}
    (h : openEntry k q = some e) : e ∈ q ∧ e.isOpen = true ∧ e.key = k := by
  have hp := List.find?_some h
  simp only [Bool.and_eq_true, decide_eq_true_eq] at hp
  exact ⟨List.mem_of_find?_eq_some h, hp.1, hp.2⟩

/-- The open entry of a key replaced by one of the key leaves the open entries those of their keys. -/
theorem replaceOpen_open (k : Key) {f : IntakeEntry → IntakeEntry}
    (hf : ∀ e, e.key = k → (f e).key = k) (q : List IntakeEntry) :
    (((replaceOpen k f q).filter IntakeEntry.isOpen).map IntakeEntry.key).Sublist
      ((q.filter IntakeEntry.isOpen).map IntakeEntry.key) := by
  induction q with
  | nil => exact List.Sublist.refl _
  | cons e q ih =>
    unfold replaceOpen at ih ⊢
    by_cases he : (e.isOpen && decide (e.key = k)) = true
    · rw [List.map_cons, if_pos he]
      simp only [Bool.and_eq_true, decide_eq_true_eq] at he
      rw [List.filter_cons_of_pos he.1, List.map_cons, List.filter_cons]
      split
      · rw [List.map_cons, hf e he.2, he.2]
        exact ih.cons_cons k
      · exact ih.cons _
    · rw [List.map_cons, if_neg he, List.filter_cons, List.filter_cons]
      split
      · exact ih.cons_cons _
      · exact ih

theorem intakeSound_replaceOpen {q : List IntakeEntry} (h : intakeSound q) (k : Key)
    {f : IntakeEntry → IntakeEntry} (hf : ∀ e, e.key = k → (f e).key = k)
    (hi : ∀ e ∈ q, e.key = k → Tab.rising (f e).items = true) : intakeSound (replaceOpen k f q) := by
  obtain ⟨hroom, hone, hitems⟩ := h
  refine ⟨by rwa [replaceOpen, List.length_map], hone.sublist (replaceOpen_open k hf q), fun e he => ?_⟩
  obtain ⟨x, hx, rfl⟩ := List.mem_map.mp he
  split
  · next hc =>
    simp only [Bool.and_eq_true, decide_eq_true_eq] at hc
    exact hi x hx hc.2
  · exact hitems x hx

theorem mem_open_iff {k : Key} {q : List IntakeEntry} :
    k ∈ (q.filter IntakeEntry.isOpen).map IntakeEntry.key ↔ openEntry k q ≠ none := by
  rw [openEntry, ne_eq, List.find?_eq_none]
  simp only [List.mem_map, List.mem_filter, Bool.and_eq_true, decide_eq_true_eq, not_forall,
    not_not, exists_prop, and_assoc]

/-- Closing the open entry of a key leaves none. -/
theorem openEntry_close (k : Key) (q : List IntakeEntry) :
    openEntry k (replaceOpen k (fun e => { e with isOpen := false }) q) = none := by
  rw [openEntry, List.find?_eq_none]
  intro e he
  obtain ⟨x, -, rfl⟩ := List.mem_map.mp he
  split
  · simp
  · assumption

theorem intakeSound_append {q : List IntakeEntry} (h : intakeSound q) {e : IntakeEntry}
    (hroom : q.length < intakeRoom) (hopen : openEntry e.key q = none)
    (hitems : Tab.rising e.items = true) : intakeSound (q ++ [e]) := by
  obtain ⟨-, hone, hrest⟩ := h
  refine ⟨by simpa using hroom, ?_, fun x hx => ?_⟩
  · rw [List.filter_append, List.map_append]
    refine List.nodup_append.mpr ⟨hone, ?_, fun a ha b hb => ?_⟩
    · cases he : e.isOpen <;> simp [he]
    · rintro rfl
      have hb' : a = e.key := by
        cases he : e.isOpen <;> simp [he] at hb
        exact hb
      exact mem_open_iff.mp (hb' ▸ ha) hopen
  · obtain hx | hx := List.mem_append.mp hx
    · exact hrest x hx
    · obtain rfl := List.mem_singleton.mp hx
      exact hitems

theorem placeTick_intake {origin : Station} {b : TickBody} {s : State} (h : intakeSound s.inq)
    (hopen : openEntry b.key s.inq = none) : intakeSound (placeTick origin b s).inq := by
  unfold placeTick
  split
  · exact intakeSound_append h ‹_› hopen (rising_writeItems b rfl)
  · exact keep_of_frame State.inq (dropNotice_frame _ _) rfl h

theorem routeTick_intake {origin : Station} {b : TickBody} {s : State} (h : intakeSound s.inq) :
    intakeSound (routeTick origin b s).inq := by
  unfold routeTick
  split
  · exact placeTick_intake h ‹_›
  · next e he =>
    obtain ⟨hmem, -, hkey⟩ := openEntry_eq_some he
    split
    · split
      · exact h
      · next e' hm =>
        obtain ⟨hk, hi⟩ := mergeTick_keeps hm
        exact intakeSound_replaceOpen h b.key (fun _ _ => hk.trans hkey)
          (fun _ _ _ => hi (h.2.2 e hmem))
    · exact placeTick_intake (intakeSound_replaceOpen h b.key (fun _ => id) (fun x hx _ => h.2.2 x hx))
        (openEntry_close _ _)

theorem takeTick_intake {origin : Station} {b : TickBody} {s : State} (h : intakeSound s.inq) :
    intakeSound (takeTick origin b s).inq := by
  unfold takeTick
  split
  · exact h
  · dsimp only
    split
    · exact routeTick_intake h
    · exact h

theorem routeTick_room (origin : Station) (b : TickBody) {s : State}
    (h : s.dir.refresh.length ≤ refreshRoom) :
    (routeTick origin b s).dir.refresh.length ≤ refreshRoom := by
  have hplace (u : State) (hu : u.dir.refresh.length ≤ refreshRoom) :
      (placeTick origin b u).dir.refresh.length ≤ refreshRoom := by
    unfold placeTick
    split
    · exact hu
    · exact dropNotice_room _ hu
  unfold routeTick
  split
  · exact hplace s h
  · split
    · split <;> exact h
    · exact hplace _ h

theorem takeTick_room (origin : Station) (b : TickBody) {s : State}
    (h : s.dir.refresh.length ≤ refreshRoom) :
    (takeTick origin b s).dir.refresh.length ≤ refreshRoom := by
  unfold takeTick
  split
  · exact h
  · dsimp only
    split
    · exact routeTick_room origin b h
    · exact h

theorem takeHead_intake {s : State} (h : intakeSound s.inq) : intakeSound (takeHead s).inq := by
  unfold takeHead
  split
  · exact h
  · next e t hq =>
    split
    · refine keep_of_frame State.inq (takeEntry_frame e _) (s := s.modInq fun _ => t) rfl ?_
      obtain ⟨hroom, hone, hitems⟩ := h
      rw [hq] at hroom hone hitems
      refine ⟨Nat.le_of_succ_le hroom, hone.sublist ?_, fun x hx => hitems x (List.mem_cons_of_mem _ hx)⟩
      exact ((List.sublist_cons_self e t).filter _).map _
    · exact h

/-! ## The Painter -/

theorem Pnt.sound_queue {p : Pnt} (h : p.sound) {q : List PaintReq}
    (hq : (q.map PaintReq.index).Nodup) (b : Option PaintBurst) :
    { p with queue := q, burst := b }.sound := ⟨h.1, hq, h.2.2⟩

theorem Pnt.sound_enqueueAll {p : Pnt} (h : p.sound) (kind : PaintKind) (l : List Nat) :
    { p with queue := enqueueAll kind l p.queue }.sound :=
  ⟨h.1, nodup_enqueueAll kind l h.2.1, h.2.2⟩

theorem length_placeHighlight (now : Sweep) (h : Highlight) (hs : List Highlight) :
    (placeHighlight now h hs).length = hs.length + 1 := by
  simpa using (placeHighlight_index now h hs).length_eq

/-- Room made for a field's entry is room for one more. -/
theorem makeRoom_length (l : Lay) (i : Nat) {p : Pnt} (h : p.highlights.length ≤ highlightRoom) :
    (makeRoom l i p).highlights.length < highlightRoom := by
  unfold makeRoom
  split
  · next hi =>
    obtain ⟨g, hg, hgi⟩ := List.any_eq_true.mp hi
    refine Nat.lt_of_lt_of_le ?_ h
    exact List.length_filter_lt_length_iff_exists.mpr ⟨g, hg, by simpa using hgi⟩
  · split
    · assumption
    · unfold expireHead
      split
      · next hp => simp [hp, highlightRoom]
      · next hp =>
        rw [hp, List.length_cons] at h
        exact h

theorem wf_expireField (l : Lay) (i : Nat) {t : Tab PaintState} (h : Tab.wf initialPaint t = true) :
    Tab.wf initialPaint (expireField l t i) = true := Tab.wf_put _ _ _ h

theorem makeRoom_keeps (l : Lay) (i : Nat) {p : Pnt} (h : p.sound) : (makeRoom l i p).sound := by
  obtain ⟨hroom, hqueue, hstates⟩ := h
  refine ⟨(makeRoom_length l i hroom).le, ?_, ?_⟩
  · unfold makeRoom expireHead
    split
    · exact hqueue
    · split
      · exact hqueue
      · split <;> exact hqueue
  · unfold makeRoom expireHead
    split
    · exact hstates
    · split
      · exact hstates
      · split
        · exact hstates
        · exact wf_expireField l _ hstates

theorem modPaint_sound {s : State} (h : s.pnt.sound) (i : Nat) (f : PaintState → PaintState) :
    (s.modPaint i f).pnt.sound := ⟨h.1, h.2.1, Tab.wf_put _ _ _ h.2.2⟩

theorem setFlash_sound {s : State} (h : s.pnt.sound) (i : Nat) (f : Flash) (hold : Nat) :
    (setFlash i f hold s).pnt.sound := by
  refine modPaint_sound ?_ i _
  obtain ⟨-, hqueue, hstates⟩ := makeRoom_keeps s.lay i h
  refine ⟨?_, hqueue, hstates⟩
  simp only [State.modPnt_pnt, length_placeHighlight]
  exact makeRoom_length s.lay i h.1

theorem unlightPage_sound (p : Nat) {s : State} (h : s.pnt.sound) : (unlightPage p s).pnt.sound :=
  ⟨(List.length_filter_le _ _).trans h.1, h.2.1,
    wf_foldl_put (f := fun _ p => { p with flash := .none }) (fun _ _ => rfl) _ h.2.2⟩

theorem wf_erase {t : Tab PaintState} (i : Nat) (h : Tab.wf initialPaint t = true) :
    Tab.wf initialPaint (Tab.erase i t) = true := by
  rw [Tab.wf_iff] at h ⊢
  exact ⟨Tab.rising_erase i h.1, fun e he => h.2 e (Tab.mem_erase he).1⟩

theorem unbindPaint_sound (i : Nat) {p : Pnt} (h : p.sound) : (unbindPaint i p).sound :=
  ⟨(List.length_filter_le _ _).trans h.1, h.2.1, wf_erase i h.2.2⟩

theorem buffersSound_binding : Binding (fun _ => True) State.buffersSound where
  window _ _ _ h := h.update id id id id id
  counts _ _ h := h.update id id id id id
  enqueue kind l _ _ h := h.update id id id (fun hp => Pnt.sound_enqueueAll hp kind l) id
  list bursts s hroom _ h := h.update id id id id fun hc =>
    ⟨by simpa [listBursts] using hroom, hc.2⟩
  unlight p _ h := h.update id id id (unlightPage_sound p) id
  burst _ _ _ h := h.update id id id (fun hp => Pnt.sound_queue hp hp.2.1 _) id
  withdraw _ _ h := h.update id id id id fun hc => ⟨(List.length_filter_le _ _).trans hc.1, hc.2⟩
  unbindPaint i _ h := h.update id id id (unbindPaint_sound i) id
  erase _ _ h := h.update id id id id id
  insert _ _ _ _ h := h.update id id id id id

theorem takeField_buffers (n : Station) (r : FieldRecord) (s : State) (h : s.buffersSound) :
    (takeField n r s).buffersSound := by
  have hrefuse (reason : Reason) : (refuseRecord 1 reason n s).buffersSound :=
    h.update id id id id id
  unfold takeField
  split
  · exact hrefuse _
  · next l _ =>
    dsimp only
    split
    · exact hrefuse _
    · split
      · exact hrefuse _
      · split
        · exact hrefuse _
        · have hrun := buffersSound_binding.foldl_changeIndex
            (run := fieldRun (fieldStart s.lay r) l) (fun _ _ => trivial) h
          refine buffersSound_binding.settleComposes (buffersSound_binding.handOver
            (fun b _ => After.within_true _) (After.within_true _) ?_)
          have hframe := settleKeys_frame
            (runKeys s.lay.fields (fieldRun (fieldStart s.lay r) l))
            (((fieldRun (fieldStart s.lay r) l).foldl changeIndex s).modLay fun lay =>
              { lay with pointer := fieldStart s.lay r + l.length })
          exact hrun.update (keep_txq hframe rfl)
            ((settleKeys_length _ _).trans ·) (keep_of_frame State.inq hframe rfl)
            (keep_of_frame State.pnt hframe rfl) (keep_of_frame State.cpl hframe rfl)

theorem takeLabel_buffers (n : Station) (r : LabelRecord) (s : State) (h : s.buffersSound) :
    (takeLabel n r s).buffersSound := by
  unfold takeLabel
  split
  · exact h.update id id id id id
  · split
    · exact h.update id id id id id
    · exact buffersSound_binding.commitLabel _ _ (h.update id id id id id)

theorem takeProg_buffers (n : Station) (r : CrawlProgRecord) (s : State) (h : s.buffersSound) :
    (takeProg n r s).buffersSound := by
  have hframe := takeProg_frame n r s
  refine h.update (keep_txq hframe rfl) (fun hr => ?_)
    (keep_of_frame State.inq hframe rfl) (keep_of_frame State.pnt hframe rfl)
    (keep_of_frame State.cpl hframe rfl)
  unfold takeProg
  split
  · exact hr
  · dsimp only
    split
    · exact hr
    · exact (settleKeys_length _ _).trans hr

theorem servePaint_buffers (s : State) (h : s.buffersSound) : (servePaint s).buffersSound := by
  unfold servePaint
  split
  · next q t _ hqueue =>
    have hq : (s.modPnt fun p => { p with queue := t }).buffersSound := by
      refine h.update id id id (fun hp => Pnt.sound_queue hp ?_ _) id
      have := hp.2.1
      rw [hqueue, List.map_cons, List.nodup_cons] at this
      exact this.2
    unfold serveReq
    split
    · exact buffersSound_binding.skipReq _ hq
    · split
      · exact buffersSound_binding.skipReq _ (buffersSound_binding.window _ _ _ hq)
      · unfold paintReq
        split
        · exact hq.update id id id (modPaint_sound · _ _) id
        · exact hq.update id id id (fun hp => Pnt.sound_queue hp hp.2.1 _) id
  · exact h
  · exact h

theorem commitPaint_buffers (s : State) (h : s.buffersSound) : (commitPaint s).buffersSound := by
  unfold commitPaint
  split
  · exact h
  · next b _ =>
    have hnone : (s.modPnt fun p => { p with burst := none }).buffersSound :=
      h.update id id id (fun hp => Pnt.sound_queue hp hp.2.1 _) id
    split
    · dsimp only
      split
      · exact hnone
      · have hdone {u : State} (hu : u.buffersSound) :
            (if b.kind = .initial then initialDone b.index u else u).buffersSound := by
          split
          · exact buffersSound_binding.initialDone _ hu
          · exact hu
        have hcommit : ((s.modPnt fun p => { p with burst := none }).modPaint b.index
            (committed (s.modPnt fun p => { p with burst := none }).now b)).buffersSound :=
          hnone.update id id id (modPaint_sound · _ _) id
        unfold commitBurst
        dsimp only
        refine hdone ?_
        have hlist : (if b.kind.startsAfresh then
            ((s.modPnt fun p => { p with burst := none }).modPaint b.index
              (committed (s.modPnt fun p => { p with burst := none }).now b)).modPnt
                fun p => { p with highlights := unlist b.index p.highlights }
            else (s.modPnt fun p => { p with burst := none }).modPaint b.index
              (committed (s.modPnt fun p => { p with burst := none }).now b)).buffersSound := by
          split
          · exact hcommit.update id id id
              (fun hp => ⟨(List.length_filter_le _ _).trans hp.1, hp.2⟩) id
          · exact hcommit
        split
        · exact hlist
        · exact hlist.update id id id (setFlash_sound · _ _ _) id
    · exact h

theorem releasePending_buffers (s : State) (h : s.buffersSound) : (releasePending s).buffersSound :=
  h.update id id id
    (fun hp => ⟨hp.1, nodup_enqueueAll _ _ hp.2.1,
      wf_foldl_put (f := fun _ p => { p with pending := none }) (fun _ _ => rfl) _ hp.2.2⟩) id

theorem expireHighlights_buffers (s : State) (h : s.buffersSound) :
    (expireHighlights s).buffersSound :=
  h.update id id id
    (fun hp => ⟨(List.length_filter_le _ _).trans hp.1, hp.2.1,
      wf_foldl_put (f := fun i p => expiredFlash (modeOf s.lay i) p) (fun _ _ => rfl) _ hp.2.2⟩) id

/-! ## The port -/

/-- A grant takes at most the head off the burst list and leaves the plane. -/
theorem grantNext_cpl (s : State) :
    (grantNext s).cpl.plane = s.cpl.plane ∧
      ((grantNext s).cpl.bursts = s.cpl.bursts ∨ ∃ b, s.cpl.bursts = b :: (grantNext s).cpl.bursts) := by
  unfold grantNext
  split
  · exact ⟨rfl, .inl rfl⟩
  · exact ⟨rfl, .inl rfl⟩
  · split
    · unfold grantCrawl
      split <;> exact ⟨rfl, .inl rfl⟩
    · unfold grantByTurn
      split
      · exact ⟨rfl, .inl rfl⟩
      · next c t _ hb => exact ⟨rfl, .inr ⟨c, hb⟩⟩
      · next c t _ hb =>
        split
        · exact ⟨rfl, .inl rfl⟩
        · exact ⟨rfl, .inr ⟨c, hb⟩⟩
      · split
        · unfold grantStatus
          split <;> exact ⟨rfl, .inl rfl⟩
        · exact ⟨rfl, .inl rfl⟩

theorem grantNext_buffers (s : State) (h : s.buffersSound) : (grantNext s).buffersSound := by
  have hframe := grantNext_frame s
  refine h.update (keep_txq hframe rfl)
    (keep_refresh hframe rfl)
    (keep_of_frame State.inq hframe rfl) (fun hp => ?_) (fun hc => ?_)
  · rw [grantNext_pnt]
    exact Pnt.sound_queue hp hp.2.1 _
  · obtain ⟨hplane, hb | ⟨b, hb⟩⟩ := grantNext_cpl s
    · exact ⟨hb ▸ hc.1, hplane ▸ hc.2⟩
    · have hroom := hc.1
      rw [hb, List.length_cons] at hroom
      exact ⟨Nat.le_of_succ_le hroom, hplane ▸ hc.2⟩

theorem completeWrite_buffers (s : State) (h : s.buffersSound) : (completeWrite s).buffersSound := by
  unfold completeWrite
  split
  · exact h
  · next g _ =>
    have hwrite : (s.modCpl fun c =>
        { c with plane := writeCells g.row g.column g.cells c.plane, granted := none }).buffersSound :=
      h.update id id id id fun hc => ⟨hc.1, wf_writeCells _ _ _ hc.2⟩
    unfold tellWritten
    split
    · exact hwrite
    · exact hwrite
    · exact hwrite.update id id id (fun hp => Pnt.sound_queue hp hp.2.1 _) id
    · exact buffersSound_binding.runAfter (After.within_true _) hwrite

theorem takeStep_buffers (s : State) (h : s.buffersSound) : (takeStep s).buffersSound := by
  have hframe := takeStep_frame s
  refine h.update (keep_txq hframe rfl)
    (keep_refresh hframe rfl)
    (keep_of_frame State.inq hframe rfl) (keep_of_frame State.pnt hframe rfl) (fun hc => ?_)
  unfold takeStep
  split
  · unfold afterStep
    rw [newCell_frame]
    exact hc
  · exact hc

theorem clearLayout_buffers (s : State) (h : s.buffersSound) : (clearLayout s).buffersSound := by
  refine h.update id (fun _ => Nat.zero_le _) (fun _ => ⟨Nat.zero_le _, List.nodup_nil, by simp [clearLayout]⟩)
    (fun _ => ⟨Nat.zero_le _, List.nodup_nil, rfl⟩) (fun hc => ⟨Nat.zero_le _, wf_clearPlane _ ?_⟩)
  unfold landWrite
  split
  · exact hc.2
  · exact wf_writeCells _ _ _ hc.2

theorem released_buffers (straps : Straps) (low : Bool) (q : List Instr) :
    (State.released straps low q).buffersSound :=
  (buffersSound_iff _).mpr ⟨Nat.zero_le _, Nat.zero_le _, ⟨Nat.zero_le _, List.nodup_nil, by simp [State.released]⟩,
    ⟨Nat.zero_le _, List.nodup_nil, rfl⟩, ⟨Nat.zero_le _, rfl⟩⟩

/-- A change of blocks that no buffer is in. -/
theorem State.buffersSound.of_blocks {s t : State} (h : s.buffersSound) (hlnk : t.lnk = s.lnk)
    (hdir : t.dir.refresh.length ≤ refreshRoom) (hinq : t.inq = s.inq) (hpnt : t.pnt = s.pnt)
    (hcpl : t.cpl = s.cpl) : t.buffersSound :=
  h.update (fun h => by rwa [hlnk]) (fun _ => hdir) (fun h => by rwa [hinq]) (fun h => by rwa [hpnt])
    (fun h => by rwa [hcpl])

theorem State.buffersSound.refreshRoomy {s : State} (h : s.buffersSound) :
    s.dir.refresh.length ≤ refreshRoom := h.1.2.2.1

theorem reportStation_buffers (n : Station) (s : State) (h : s.buffersSound) :
    (reportStation n s).buffersSound := by
  have hframe := reportStation_frame n s
  refine h.update (fun ht => ?_) (fun hr => ?_) (keep_of_frame State.inq hframe rfl)
    (keep_of_frame State.pnt hframe rfl) (keep_of_frame State.cpl hframe rfl)
  · unfold reportStation
    dsimp only
    split
    · rw [stationGone_frame]
      exact ht
    · exact ht
  · unfold reportStation
    dsimp only
    split
    · exact stationGone_room n hr
    · exact hr

theorem takePresence_buffers (n : Station) (k : PeerKind) (s : State) (h : s.buffersSound) :
    (takePresence n k s).buffersSound := by
  have hframe := takePresence_frame n k s
  refine h.of_blocks (read_of_frame State.lnk hframe rfl) ?_ (read_of_frame State.inq hframe rfl)
    (read_of_frame State.pnt hframe rfl) (read_of_frame State.cpl hframe rfl)
  unfold takePresence
  dsimp only
  split
  · exact stationGone_room n h.refreshRoomy
  · exact h.refreshRoomy

theorem takeTick_buffers (n : Station) (b : TickBody) (s : State) (h : s.buffersSound) :
    (takeTick n b s).buffersSound :=
  have hframe := takeTick_frame n b s
  h.update (keep_txq hframe rfl) (takeTick_room n b) takeTick_intake
    (keep_of_frame State.pnt hframe rfl) (keep_of_frame State.cpl hframe rfl)

theorem takeHead_sound {s : State} (h : s.pnt.sound) : (takeHead s).pnt.sound := by
  obtain ⟨l, hl⟩ := takeHead_pnt s
  rw [hl]
  exact Pnt.sound_enqueueAll h _ _

theorem takeHead_buffers (s : State) (h : s.buffersSound) : (takeHead s).buffersSound :=
  have hframe := takeHead_frame s
  h.update (keep_txq hframe rfl) takeHead_room takeHead_intake takeHead_sound
    (keep_of_frame State.cpl hframe rfl)

theorem setMark_buffers (n : Station) (m : Option Key) (s : State) (h : s.buffersSound) :
    (setMark n m s).buffersSound :=
  have hframe := setMark_frame n m s
  h.of_blocks (read_of_frame State.lnk hframe rfl) (by rw [setMark_refresh]; exact h.refreshRoomy)
    (read_of_frame State.inq hframe rfl) (read_of_frame State.pnt hframe rfl)
    (read_of_frame State.cpl hframe rfl)

/-- A command that changes none of the blocks a buffer is in keeps the buffers sound. -/
theorem State.buffersSound.of_frame {s t : State} (h : s.buffersSound)
    (hf : t = { s with lay := t.lay, win := t.win, ptb := t.ptb, crw := t.crw, sts := t.sts }) :
    t.buffersSound := by
  rw [hf]
  exact h.update id id id id id

theorem takeHandoff_buffers (n : Station) (b : HandoffBody) (s : State) (h : s.buffersSound) :
    (takeHandoff n b s).buffersSound := by
  rw [takeHandoff_frame]
  exact h.update id id id id id

theorem takeCrawlText_buffers (b : CrawlTextBody) (s : State) (h : s.buffersSound) :
    (takeCrawlText b s).buffersSound := by
  rw [takeCrawlText_frame]
  exact h.update id id id id id

theorem flushCrawl_buffers (s : State) (h : s.buffersSound) : (flushCrawl s).buffersSound := by
  rw [flushCrawl_frame]
  exact h.update id id id id id

theorem limitDeadlines_refresh (limit : Nat) (d : Dir) :
    (limitDeadlines limit d).refresh = d.refresh := by
  unfold limitDeadlines
  split <;> rfl

theorem buffersSound_kept : Kept State.buffersSound where
  link s f hf h := h.update (fun ht => by
    obtain hf | hf := hf
    · rwa [State.modLnk_lnk, hf]
    · rw [State.modLnk_lnk, hf, List.length_tail]
      exact (Nat.sub_le _ _).trans ht) id id id id
  counts _ _ h := h.update id id id id id
  origin _ _ h := h.update id id id id id
  port s f hp hb _ h := h.update id id id id fun hc => by
    rw [State.modCpl_cpl, Cpl.sound, hp, hb]
    exact hc
  tables _ _ _ _ _ _ h := h.update id id id id id
  reset _ _ h := h.update id id id id id
  released _ _ _ _ := released_buffers _ _ _
  sweep := sweepStart_buffers
  deadlines _ := runRefreshPass_buffers true
  status s h := by
    have hframe := offerStatus_frame s
    exact h.update offerStatus_room
      (keep_refresh hframe rfl)
      (keep_of_frame State.inq hframe rfl) (keep_of_frame State.pnt hframe rfl)
      (keep_of_frame State.cpl hframe rfl)
  report := reportStation_buffers
  presence := takePresence_buffers
  mark := setMark_buffers
  tick := takeTick_buffers
  apply := takeHead_buffers
  stale _ h := h.update id id id id id
  show_ := buffersSound_binding.takeShow
  release := buffersSound_binding.takeRelease
  run := buffersSound_binding.takeRun
  halt _ _ _ h := h.update id id id id id
  freeze _ _ _ h := h.update id id id id id
  thaw := buffersSound_binding.takeThaw
  override := buffersSound_binding.takeOverride
  dwell := buffersSound_binding.takeDwellExpiry
  clear := clearLayout_buffers
  field := takeField_buffers
  label := takeLabel_buffers
  window := buffersSound_binding.takeWindow
  prog := takeProg_buffers
  limit l s h := h.update id (fun hr => by rwa [State.modDir_dir, limitDeadlines_refresh]) id id id
  handoff := takeHandoff_buffers
  crawlText := takeCrawlText_buffers
  flush := flushCrawl_buffers
  crawl := takeStep_buffers
  paint := servePaint_buffers
  commit := commitPaint_buffers
  pending := releasePending_buffers
  highlights := expireHighlights_buffers
  grant := grantNext_buffers
  transfer := completeWrite_buffers

theorem buffersSound_step {s t : State} (hs : s.buffersSound) (he : step s = .next t) :
    t.buffersSound := buffersSound_kept.step (fun _ _ h => h.update id id id id id) hs he

end Sys2Proof.Machine

/-! PROOFS. Every step keeps a record for exactly the keys the layout names, with its counts, its
sources and its deadline, and every peer's miss count within its state (R24, R30, R39, R54, R65, R67). -/

namespace Sys2Proof.Machine

/-! ## Counting the entries of a table -/

section counting

variable {α : Type}

theorem Tab.filter_erase {p : Nat × α → Bool} {k : Nat} {t : Tab α}
    (h : ∀ v, (k, v) ∈ t → p (k, v) = false) : (Tab.erase k t).filter p = t.filter p := by
  induction t with
  | nil => rfl
  | cons e t ih =>
    obtain ⟨i, v⟩ := e
    have ih := ih fun v hv => h v (List.mem_cons_of_mem _ hv)
    by_cases hi : i = k
    · subst hi
      rw [List.filter_cons_of_neg (by simp [h v List.mem_cons_self]), ← ih]
      simp [Tab.erase]
    · rw [Tab.erase, if_neg hi, List.filter_cons, List.filter_cons, ih]

theorem Tab.filter_place {p : Nat × α → Bool} {k : Nat} {v : α} (h : p (k, v) = false) (t : Tab α) :
    (Tab.place k v t).filter p = t.filter p := by
  induction t with
  | nil => simp [Tab.place, h]
  | cons e t ih =>
    obtain ⟨i, w⟩ := e
    unfold Tab.place
    split
    · rw [List.filter_cons_of_neg (by simp [h])]
    · rw [List.filter_cons, List.filter_cons, ih]

theorem Tab.filter_insert {p : Nat × α → Bool} {k : Nat} {v : α} {t : Tab α}
    (hv : p (k, v) = false) (h : ∀ v, (k, v) ∈ t → p (k, v) = false) :
    (Tab.insert k v t).filter p = t.filter p := by
  rw [Tab.insert, Tab.filter_place hv, Tab.filter_erase h]

theorem Tab.filter_put [DecidableEq α] {p : Nat × α → Bool} {d : α} {k : Nat} {v : α} {t : Tab α}
    (hv : p (k, v) = false) (h : ∀ v, (k, v) ∈ t → p (k, v) = false) :
    (Tab.put d k v t).filter p = t.filter p := by
  unfold Tab.put
  split
  · exact Tab.filter_erase h
  · exact Tab.filter_insert hv h

theorem Tab.erase_of_look_none {k : Nat} {t : Tab α} (h : Tab.look k t = none) :
    Tab.erase k t = t := by
  induction t with
  | nil => rfl
  | cons e t ih =>
    obtain ⟨i, v⟩ := e
    by_cases hi : i = k
    · simp [Tab.look, hi] at h
    · rw [Tab.erase, if_neg hi, ih (by simpa [Tab.look, hi] using h)]

theorem Tab.insert_erase (k : Nat) (v : α) (t : Tab α) :
    Tab.insert k v (Tab.erase k t) = Tab.insert k v t := by
  rw [Tab.insert, Tab.insert, Tab.erase_of_look_none (t := Tab.erase k t)]
  rw [Tab.look_erase, if_pos rfl]

theorem Tab.mem_insert {k : Nat} {v : α} {e : Nat × α} {t : Tab α} (h : e ∈ Tab.insert k v t) :
    e = (k, v) ∨ e ∈ t := (Tab.mem_place h).imp_right fun h => (Tab.mem_erase h).1

theorem Tab.rising_put [DecidableEq α] (d : α) (k : Nat) (v : α) {t : Tab α}
    (h : Tab.rising t = true) : Tab.rising (Tab.put d k v t) = true := by
  unfold Tab.put
  split
  · exact Tab.rising_erase k h
  · exact Tab.rising_insert k v h

end counting

/-! ## Records -/

/-- A property of single records that every change of a record keeps. -/
structure RecordRule (Q : Record → Prop) : Prop where
  fresh : ∀ k marks refs, Q (newRecord k marks refs)
  refs : ∀ (r : Record) (n : Nat), Q r → Q { r with refs := n }
  marks : ∀ (r : Record) (n : Nat), Q r → Q { r with marks := n }
  switch : ∀ s gone r, Q r → Q (switchRecord s gone r)
  alternate : ∀ r : Record, Q r → Q { r with alternate := none }
  limit : ∀ r : Record, Q r → Q { r with deadline := none }
  expire : ∀ now r, Q r → Q (expireStale now r)
  filter : ∀ origin r, Q r → Q (sourceFilter origin r).1
  dropped : ∀ r : Record, Q r →
    Q { r with
      state := .gapped
      deadline := none
      image := r.image.map fun i => { i with gapped := true } }
  applied : ∀ (e : IntakeEntry) (r : Record) (a : Applied) (now : Sweep) (limit : Nat),
    applyEntry e r = some a → Q r →
      Q { a.record with deadline := staleDeadline now limit a.record.state }

variable {Q : Record → Prop}

/-- The tables that the records and their counts rest on are canonical, every record stands at its key
and has the property of single records. -/
def State.recordsTabled (Q : Record → Prop) (s : State) : Prop :=
  Tab.rising s.lay.fields = true ∧ Tab.rising s.lay.prog = true ∧ Tab.rising s.ptb.marks = true ∧
    Tab.rising s.dir.records = true ∧ ∀ e ∈ s.dir.records, e.1 = e.2.key.toNat ∧ Q e.2

/-- The records follow the layout and the marks, but for the references of the keys in `R` and the mark
counts of those in `M`, which a change under way has yet to settle. -/
def State.recordsMatchBut (Q : Record → Prop) (R M : Key → Prop) (s : State) : Prop :=
  s.recordsTabled Q ∧
    (∀ k r, s.record? k = some r → ¬ R k → r.refs = refCount s.lay k) ∧
    (∀ k r, s.record? k = some r → ¬ M k → r.marks = markCount s.ptb k) ∧
    ∀ k, ¬ R k → ((s.record? k).isSome = true ↔ 0 < refCount s.lay k)

/-- No key is left to settle. -/
def noKey (_ : Key) : Prop := False

theorem State.recordsTabled.key {s : State} (h : s.recordsTabled Q) {k : Key} {r : Record}
    (hr : s.record? k = some r) : r.key = k ∧ Q r := by
  obtain ⟨hkey, hsound⟩ := h.2.2.2.2 _ (Tab.mem_of_look hr)
  exact ⟨(BitVec.eq_of_toNat_eq hkey).symm, hsound⟩

theorem State.recordsTabled.record_of_mem {s : State} (h : s.recordsTabled Q) {e : Nat × Record}
    (he : e ∈ s.dir.records) : s.record? e.2.key = some e.2 := by
  obtain ⟨-, -, -, hrising, hkeys⟩ := h
  rw [State.record?, ← (hkeys e he).1]
  exact Tab.look_of_mem hrising he

theorem recordsSound_iff (s : State) :
    (s.recordsMatch ∧ ∀ e ∈ s.dir.records, Q e.2) ↔ s.recordsMatchBut Q noKey noKey := by
  constructor
  · rintro ⟨⟨h1, h2, h3, h4, h5, h6⟩, hq⟩
    have ht : s.recordsTabled Q := ⟨h1, h2, h3, h4, fun e he => ⟨(h5 e he).1, hq e he⟩⟩
    refine ⟨ht, fun k r hr _ => ?_, fun k r hr _ => ?_, fun k _ => h6 k⟩
    · rw [← (ht.key hr).1]
      exact (h5 _ (Tab.mem_of_look hr)).2.1
    · rw [← (ht.key hr).1]
      exact (h5 _ (Tab.mem_of_look hr)).2.2
  · rintro ⟨ht, hrefs, hmarks, hsome⟩
    obtain ⟨h1, h2, h3, h4, h5⟩ := ht
    refine ⟨⟨h1, h2, h3, h4, fun e he => ⟨(h5 e he).1, ?_, ?_⟩, fun k => hsome k id⟩,
      fun e he => (h5 e he).2⟩
    · exact hrefs _ _ (State.recordsTabled.record_of_mem ⟨h1, h2, h3, h4, h5⟩ he) id
    · exact hmarks _ _ (State.recordsTabled.record_of_mem ⟨h1, h2, h3, h4, h5⟩ he) id

/-- The property rests on these tables alone. -/
theorem State.recordsMatchBut_congr {R M : Key → Prop} {s t : State}
    (hfields : t.lay.fields = s.lay.fields) (hprog : t.lay.prog = s.lay.prog)
    (hmarks : t.ptb.marks = s.ptb.marks) (hrecords : t.dir.records = s.dir.records)
    (h : s.recordsMatchBut Q R M) : t.recordsMatchBut Q R M := by
  have hrec (k : Key) : t.record? k = s.record? k := by rw [State.record?, hrecords]; rfl
  have href (k : Key) : refCount t.lay k = refCount s.lay k := by
    rw [refCount, hfields, hprog]; rfl
  have hmark (k : Key) : markCount t.ptb k = markCount s.ptb k := by
    rw [markCount, hmarks]; rfl
  simpa only [State.recordsMatchBut, State.recordsTabled, hfields, hprog, hmarks, hrecords, hrec, href,
    hmark] using h

theorem State.recordsTabled.setRecord {s : State} (h : s.recordsTabled Q) {r : Record} (hr : Q r) :
    (s.setRecord r).recordsTabled Q := by
  obtain ⟨h1, h2, h3, h4, h5⟩ := h
  refine ⟨h1, h2, h3, Tab.rising_insert _ _ h4, fun e he => ?_⟩
  obtain rfl | he := Tab.mem_insert he
  · exact ⟨rfl, hr⟩
  · exact h5 e he

/-- A record may change in all but its key and its counts. -/
theorem State.recordsMatchBut.setRecord {R M : Key → Prop} {s : State} (h : s.recordsMatchBut Q R M)
    {k : Key} {r r' : Record} (hr : s.record? k = some r) (hkey : r'.key = r.key)
    (hrefs : r'.refs = r.refs) (hmarks : r'.marks = r.marks) (hsound : Q r') :
    (s.setRecord r').recordsMatchBut Q R M := by
  obtain ⟨ht, href, hmark, hsome⟩ := h
  have hk : r'.key = k := hkey.trans (ht.key hr).1
  refine ⟨ht.setRecord hsound, fun j x hx hj => ?_, fun j x hx hj => ?_, fun j hj => ?_⟩
  · rw [State.record?_setRecord, hk] at hx
    split at hx
    · next e =>
      obtain rfl := Option.some.inj hx
      subst e
      exact hrefs.trans (href _ _ hr hj)
    · exact href j x hx hj
  · rw [State.record?_setRecord, hk] at hx
    split at hx
    · next e =>
      obtain rfl := Option.some.inj hx
      subst e
      exact hmarks.trans (hmark _ _ hr hj)
    · exact hmark j x hx hj
  · rw [State.record?_setRecord, hk]
    split
    · next e =>
      subst e
      have := hsome _ hj
      rw [hr] at this
      simpa using this
    · exact hsome j hj

/-! ## References -/

theorem freeRecord_record? (k j : Key) (s : State) :
    (freeRecord k s).record? j = if j = k then none else s.record? j := by
  have : (j.toNat = k.toNat) = (j = k) := by rw [eq_iff_iff]; exact BitVec.toNat_inj
  unfold freeRecord dropRefresh State.record?
  simp only [State.modDir_dir, Tab.look_erase, this]

/-- What settling a key leaves: a record with its count while the layout names the key, none otherwise,
and every other record as it was (R54 to R56). -/
theorem settleKey_record? (s : State) (k j : Key) (ht : s.recordsTabled Q) :
    (settleKey s k).record? j =
      if j = k then
        if refCount s.lay k = 0 then none
        else some
          { (s.record? k).getD (newRecord k (markCount s.ptb k) 0) with refs := refCount s.lay k }
      else s.record? j := by
  unfold settleKey
  dsimp only
  cases hr : s.record? k with
  | none =>
    dsimp only
    split
    · next h0 =>
      split
      · next e => rw [e, hr]
      · rfl
    · rw [State.record?_setRecord]
      rfl
  | some r =>
    dsimp only
    split
    · rw [freeRecord_record?]
    · rw [State.record?_setRecord]
      show (if j = r.key then some { r with refs := refCount s.lay k } else s.record? j) = _
      have hkey : (j = r.key) = (j = k) := by rw [(ht.key hr).1]
      simp only [hkey, Option.getD_some]

theorem settleKey_tabled (hQ : RecordRule Q) {s : State} (k : Key) (ht : s.recordsTabled Q) :
    (settleKey s k).recordsTabled Q := by
  unfold settleKey
  dsimp only
  cases hr : s.record? k with
  | none =>
    dsimp only
    split
    · exact ht
    · exact ht.setRecord (hQ.fresh _ _ _)
  | some r =>
    dsimp only
    split
    · obtain ⟨h1, h2, h3, h4, h5⟩ := ht
      exact ⟨h1, h2, h3, Tab.rising_erase _ h4, fun e he => h5 e (Tab.mem_erase he).1⟩
    · exact ht.setRecord (hQ.refs _ _ (ht.key hr).2)

theorem settleKey_settles (hQ : RecordRule Q) {R : Key → Prop} {s : State} (k : Key)
    (h : s.recordsMatchBut Q R noKey) :
    (settleKey s k).recordsMatchBut Q (fun j => R j ∧ j ≠ k) noKey := by
  have htabled := settleKey_tabled hQ k h.1
  obtain ⟨ht, href, hmark, hsome⟩ := h
  have hlay : (settleKey s k).lay = s.lay := read_of_frame State.lay (settleKey_frame s k) rfl
  have hptb : (settleKey s k).ptb = s.ptb := read_of_frame State.ptb (settleKey_frame s k) rfl
  refine ⟨htabled, fun j x hx hj => ?_, fun j x hx hj => ?_, fun j hj => ?_⟩
  · rw [settleKey_record? s k j ht] at hx
    rw [hlay]
    split at hx
    · next e =>
      subst e
      split at hx
      · cases hx
      · obtain rfl := Option.some.inj hx
        rfl
    · next e => exact href j x hx fun hR => hj ⟨hR, e⟩
  · rw [settleKey_record? s k j ht] at hx
    rw [hptb]
    split at hx
    · next e =>
      subst e
      split at hx
      · cases hx
      · obtain rfl := Option.some.inj hx
        cases hr : s.record? j with
        | none => rfl
        | some r => exact hmark j r hr id
    · exact hmark j x hx id
  · rw [settleKey_record? s k j ht, hlay]
    split
    · next e =>
      subst e
      split
      · next h0 => simp [h0]
      · next h0 => simpa using Nat.pos_of_ne_zero h0
    · next e => exact hsome j fun hR => hj ⟨hR, e⟩

theorem settleKeys_settles (hQ : RecordRule Q) {R : Key → Prop} (keys : List Key) {s : State}
    (h : s.recordsMatchBut Q R noKey) (hR : ∀ k, R k → k ∈ keys) :
    (settleKeys keys s).recordsMatchBut Q noKey noKey := by
  unfold settleKeys
  induction keys generalizing s R with
  | nil =>
    have : R = noKey := funext fun k => propext ⟨fun hk => by simpa using hR k hk, False.elim⟩
    exact this ▸ h
  | cons k keys ih =>
    refine ih (settleKey_settles hQ k h) fun j hj => ?_
    exact (List.mem_cons.mp (hR j hj.1)).resolve_left hj.2

/-! ## Marks -/

theorem settleMarks_settles (hQ : RecordRule Q) {M : Key → Prop} {s : State} (k : Key)
    (h : s.recordsMatchBut Q noKey M) :
    (settleMarks s k).recordsMatchBut Q noKey (fun j => M j ∧ j ≠ k) := by
  obtain ⟨ht, href, hmark, hsome⟩ := h
  unfold settleMarks
  cases hr : s.record? k with
  | none =>
    refine ⟨ht, href, fun j x hx hj => hmark j x hx fun hM => hj ⟨hM, ?_⟩, hsome⟩
    rintro rfl
    rw [hr] at hx
    cases hx
  | some r =>
    have hkey := (ht.key hr).1
    have hrec (j : Key) : (s.setRecord { r with marks := markCount s.ptb k }).record? j =
        if j = k then some { r with marks := markCount s.ptb k } else s.record? j := by
      rw [State.record?_setRecord]
      show (if j = r.key then _ else _) = _
      rw [hkey]
    refine ⟨ht.setRecord (hQ.marks _ _ (ht.key hr).2), fun j x hx hj => ?_, fun j x hx hj => ?_, fun j hj => ?_⟩
    · rw [hrec] at hx
      split at hx
      · next e =>
        obtain rfl := Option.some.inj hx
        subst e
        exact href _ r hr hj
      · exact href j x hx hj
    · rw [hrec] at hx
      split at hx
      · next e =>
        obtain rfl := Option.some.inj hx
        subst e
        rfl
      · next e => exact hmark j x hx fun hM => hj ⟨hM, e⟩
    · rw [hrec]
      split
      · next e =>
        subst e
        have := hsome _ hj
        rw [hr] at this
        simpa using this
      · exact hsome j hj

theorem foldl_settleMarks_settles (hQ : RecordRule Q) {M : Key → Prop} (keys : List Key) {s : State}
    (h : s.recordsMatchBut Q noKey M) (hM : ∀ k, M k → k ∈ keys) :
    (keys.foldl settleMarks s).recordsMatchBut Q noKey noKey := by
  induction keys generalizing s M with
  | nil =>
    have : M = noKey := funext fun k => propext ⟨fun hk => by simpa using hM k hk, False.elim⟩
    exact this ▸ h
  | cons k keys ih =>
    refine ih (settleMarks_settles hQ k h) fun j hj => ?_
    exact (List.mem_cons.mp (hM j hj.1)).resolve_left hj.2

/-- The mark table after station n's entry is set or taken out. -/
def marksWith (n : Station) (m : Option Key) (t : Tab Key) : Tab Key :=
  match m with
  | none => Tab.erase n.toNat t
  | some k => Tab.insert n.toNat k t

theorem look_marksWith (n : Station) (m : Option Key) (t : Tab Key) (j : Nat) :
    Tab.look j (marksWith n m t) = if j = n.toNat then m else Tab.look j t := by
  cases m with
  | none => exact Tab.look_erase ..
  | some k => exact Tab.look_insert ..

theorem rising_marksWith (n : Station) (m : Option Key) {t : Tab Key} (h : Tab.rising t = true) :
    Tab.rising (marksWith n m t) = true := by
  cases m with
  | none => exact Tab.rising_erase _ h
  | some k => exact Tab.rising_insert _ _ h

/-- A key that is neither the old nor the new mark of a station keeps its mark count. -/
theorem markCount_marksWith {n : Station} {m : Option Key} {p : Ptb} {k : Key}
    (hr : Tab.rising p.marks = true) (hold : Tab.look n.toNat p.marks ≠ some k) (hm : m ≠ some k) :
    markCount { p with marks := marksWith n m p.marks } k = markCount p k := by
  have hout (v : Key) (hv : (n.toNat, v) ∈ p.marks) : decide (v = k) = false := by
    rw [decide_eq_false_iff_not]
    rintro rfl
    exact hold (Tab.look_of_mem hr hv)
  unfold markCount
  congr 1
  cases m with
  | none => exact Tab.filter_erase (p := fun e => decide (e.2 = k)) hout
  | some v =>
    refine Tab.filter_insert (p := fun e => decide (e.2 = k)) ?_ hout
    rw [decide_eq_false_iff_not]
    rintro rfl
    exact hm rfl

theorem setMark_eq (n : Station) (m : Option Key) (s : State) :
    setMark n m s =
      ((Tab.look n.toNat s.ptb.marks).toList ++ m.toList).foldl settleMarks
        (s.modPtb fun p => { p with marks := marksWith n m p.marks }) := by
  cases m <;> rfl

theorem setMark_ptb (n : Station) (m : Option Key) (s : State) :
    (setMark n m s).ptb = { s.ptb with marks := marksWith n m s.ptb.marks } := by
  rw [setMark_eq, foldl_settleMarks_frame]
  rfl

theorem setMark_records (hQ : RecordRule Q) {s : State} (n : Station) (m : Option Key)
    (h : s.recordsMatchBut Q noKey noKey) : (setMark n m s).recordsMatchBut Q noKey noKey := by
  rw [setMark_eq]
  obtain ⟨⟨h1, h2, h3, h4, h5⟩, href, hmark, hsome⟩ := h
  refine foldl_settleMarks_settles hQ
    (M := fun k => k ∈ (Tab.look n.toNat s.ptb.marks).toList ++ m.toList) _
    ⟨⟨h1, h2, rising_marksWith n m h3, h4, h5⟩, href, fun k r hr hk => ?_, hsome⟩ fun _ hk => hk
  dsimp only at hk
  rw [List.mem_append, Option.mem_toList, Option.mem_toList, not_or] at hk
  exact (hmark k r hr id).trans (markCount_marksWith h3 hk.1 hk.2).symm

/-! ## Source switching -/

theorem switchRecord_keeps (s : State) (gone : Station) (r : Record) :
    (switchRecord s gone r).key = r.key ∧ (switchRecord s gone r).refs = r.refs ∧
      (switchRecord s gone r).marks = r.marks := by
  unfold switchRecord
  dsimp only
  split
  · exact ⟨rfl, rfl, rfl⟩
  · split <;> exact ⟨rfl, rfl, rfl⟩

theorem askRefresh_records (k : Key) (s : State) :
    (askRefresh k s).dir.records = s.dir.records := by
  unfold askRefresh
  split
  · rfl
  · split <;> rfl

theorem State.recordsMatchBut_askRefresh {R M : Key → Prop} {s : State} (k : Key)
    (h : s.recordsMatchBut Q R M) : (askRefresh k s).recordsMatchBut Q R M := by
  have hf := askRefresh_frame k s
  exact State.recordsMatchBut_congr (s := s) (read_of_frame (fun s => s.lay.fields) hf rfl)
    (read_of_frame (fun s => s.lay.prog) hf rfl) (read_of_frame (fun s => s.ptb.marks) hf rfl)
    (askRefresh_records k s) h

theorem switchOne_records (hQ : RecordRule Q) {s : State} (gone : Station) (k : Key)
    (h : s.recordsMatchBut Q noKey noKey) : (switchOne gone s k).recordsMatchBut Q noKey noKey := by
  unfold switchOne
  split
  · exact h
  · next r hr =>
    have hsound := (h.1.key hr).2
    split
    · obtain ⟨hkey, hrefs, hmarks⟩ := switchRecord_keeps s gone r
      have hdrop : (dropRefresh k s).recordsMatchBut Q noKey noKey :=
        State.recordsMatchBut_congr rfl rfl rfl rfl h
      have hset := hdrop.setRecord (k := k) (r := r) hr hkey hrefs hmarks (hQ.switch s gone r hsound)
      dsimp only
      split
      · exact State.recordsMatchBut_askRefresh k hset
      · exact hset
    · split
      · exact h.setRecord hr rfl rfl rfl (hQ.alternate r hsound)
      · exact h

theorem switchSources_records (hQ : RecordRule Q) {s : State} (gone : Station) (h : s.recordsMatchBut Q noKey noKey) :
    (switchSources gone s).recordsMatchBut Q noKey noKey := by
  unfold switchSources
  generalize switchOrder s.dir = l
  induction l generalizing s with
  | nil => exact h
  | cons k l ih => exact ih (switchOne_records hQ gone k h)

theorem stationGone_records (hQ : RecordRule Q) {s : State} (n : Station) (h : s.recordsMatchBut Q noKey noKey) :
    (stationGone n s).recordsMatchBut Q noKey noKey :=
  State.recordsMatchBut_congr (s := setMark n none (switchSources n s)) rfl rfl rfl rfl
    (setMark_records hQ n none (switchSources_records hQ n h))

/-! ## Records rewritten one by one -/

/-- Every record may change in all but its key and its counts. -/
theorem recordsMatchBut_mapValues {s : State} (f : Record → Record)
    (hf : ∀ r, (f r).key = r.key ∧ (f r).refs = r.refs ∧ (f r).marks = r.marks)
    (hs : ∀ r, Q r → Q (f r)) (h : s.recordsMatchBut Q noKey noKey) :
    (s.modDir fun d =>
      { d with records := Tab.mapValues (fun _ r => f r) d.records }).recordsMatchBut Q noKey noKey := by
  obtain ⟨⟨h1, h2, h3, h4, h5⟩, href, hmark, hsome⟩ := h
  have hrec (k : Key) : (s.modDir fun d =>
      { d with records := Tab.mapValues (fun _ r => f r) d.records }).record? k =
        (s.record? k).map f := Tab.look_mapValues _ _ _
  refine ⟨⟨h1, h2, h3, Tab.rising_mapValues _ h4, fun e he => ?_⟩, fun k r hr hk => ?_,
    fun k r hr hk => ?_, fun k hk => ?_⟩
  · obtain ⟨v, hv, he⟩ := Tab.mem_mapValues.mp he
    obtain ⟨hkey, hsound⟩ := h5 _ hv
    rw [he, (hf v).1]
    exact ⟨hkey, hs v hsound⟩
  · rw [hrec] at hr
    obtain ⟨x, hx, rfl⟩ := Option.map_eq_some_iff.mp hr
    exact (hf x).2.1.trans (href k x hx hk)
  · rw [hrec] at hr
    obtain ⟨x, hx, rfl⟩ := Option.map_eq_some_iff.mp hr
    exact (hf x).2.2.trans (hmark k x hx hk)
  · rw [hrec, Option.isSome_map]
    exact hsome k hk

theorem expireStale_keeps (now : Sweep) (r : Record) :
    (expireStale now r).key = r.key ∧ (expireStale now r).refs = r.refs ∧
      (expireStale now r).marks = r.marks := by
  unfold expireStale
  split <;> exact ⟨rfl, rfl, rfl⟩

/-! ## Ticks and applies -/

theorem sourceFilter_keeps (origin : Station) (r : Record) :
    (sourceFilter origin r).1.key = r.key ∧ (sourceFilter origin r).1.refs = r.refs ∧
      (sourceFilter origin r).1.marks = r.marks := by
  unfold sourceFilter
  split
  · exact ⟨rfl, rfl, rfl⟩
  · split <;> exact ⟨rfl, rfl, rfl⟩

theorem dropNotice_records (hQ : RecordRule Q) {s : State} (k : Key) (h : s.recordsMatchBut Q noKey noKey) :
    (dropNotice k s).recordsMatchBut Q noKey noKey := by
  unfold dropNotice
  split
  · exact h
  · next r hr =>
    exact State.recordsMatchBut_askRefresh k
      (h.setRecord hr rfl rfl rfl (hQ.dropped r (h.1.key hr).2))

theorem placeTick_records (hQ : RecordRule Q) {s : State} (n : Station) (b : TickBody)
    (h : s.recordsMatchBut Q noKey noKey) : (placeTick n b s).recordsMatchBut Q noKey noKey := by
  unfold placeTick
  split
  · exact State.recordsMatchBut_congr rfl rfl rfl rfl h
  · exact dropNotice_records hQ _ (State.recordsMatchBut_congr rfl rfl rfl rfl h)

theorem routeTick_records (hQ : RecordRule Q) {s : State} (n : Station) (b : TickBody)
    (h : s.recordsMatchBut Q noKey noKey) : (routeTick n b s).recordsMatchBut Q noKey noKey := by
  unfold routeTick
  split
  · exact placeTick_records hQ n b h
  · split
    · split <;> exact State.recordsMatchBut_congr rfl rfl rfl rfl h
    · exact placeTick_records hQ n b (State.recordsMatchBut_congr rfl rfl rfl rfl h)

theorem takeTick_records (hQ : RecordRule Q) {s : State} (n : Station) (b : TickBody)
    (h : s.recordsMatchBut Q noKey noKey) : (takeTick n b s).recordsMatchBut Q noKey noKey := by
  unfold takeTick
  split
  · exact State.recordsMatchBut_congr rfl rfl rfl rfl h
  · next r hr =>
    obtain ⟨hkey, hrefs, hmarks⟩ := sourceFilter_keeps n r
    have hset := h.setRecord hr hkey hrefs hmarks (hQ.filter n r (h.1.key hr).2)
    dsimp only
    split
    · exact routeTick_records hQ n b hset
    · exact hset

/-- What an apply leaves of a record: its key, its counts and its sources. -/
def Applied.of (a : Applied) (r : Record) : Prop :=
  a.record.key = r.key ∧ a.record.refs = r.refs ∧ a.record.marks = r.marks ∧
    a.record.source = r.source ∧ a.record.alternate = r.alternate

theorem endImage_of {e : IntakeEntry} {a : Applied} {r : Record} (h : a.of r) :
    (endImage e a).of r := by
  unfold endImage
  split
  · exact h
  · split <;> exact h

theorem applyEntry_of {e : IntakeEntry} {r : Record} {a : Applied} (h : applyEntry e r = some a) :
    a.of r := by
  have hsame : ∀ b : Applied, b.of r → endImage e b = a → a.of r := by
    rintro b hb rfl
    exact endImage_of hb
  unfold applyEntry at h
  split at h
  · exact hsame _ ⟨rfl, rfl, rfl, rfl, rfl⟩ (Option.some.inj h)
  · split at h
    · exact hsame _ ⟨rfl, rfl, rfl, rfl, rfl⟩ (Option.some.inj h)
    · split at h
      · cases h
      · exact hsame _ ⟨rfl, rfl, rfl, rfl, rfl⟩ (Option.some.inj h)
      · exact hsame _ ⟨rfl, rfl, rfl, rfl, rfl⟩ (Option.some.inj h)

/-- The records after an apply: that of the key put in place. -/
theorem commitApply_records (k : Key) (a : Applied) (s : State) :
    (commitApply k a s).dir.records =
      (s.setRecord { a.record with
        deadline := staleDeadline s.now s.lay.global.staleLimit a.record.state }).dir.records := by
  have hask (u : State) : (if a.asked then askRefresh k u else u).dir.records = u.dir.records := by
    split
    · exact askRefresh_records k u
    · rfl
  have hgap (u : State) : (if a.gap then u.countGap else u).dir = u.dir := by split <;> rfl
  unfold commitApply
  dsimp only
  rw [State.enqueue_dir]
  split
  · rw [hask, hgap]
  · rw [dropRefresh, State.modDir_dir, hask, hgap]

theorem takeHead_records (hQ : RecordRule Q) {s : State} (h : s.recordsMatchBut Q noKey noKey) :
    (takeHead s).recordsMatchBut Q noKey noKey := by
  unfold takeHead
  split
  · exact h
  · next e t _ =>
    have hq : (s.modInq fun _ => t).recordsMatchBut Q noKey noKey :=
      State.recordsMatchBut_congr rfl rfl rfl rfl h
    split
    · unfold takeEntry
      split
      · exact hq
      · next r hr =>
        split
        · split
          · exact State.recordsMatchBut_congr rfl rfl rfl rfl hq
          · next a ha =>
            obtain ⟨hkey, hrefs, hmarks, -, -⟩ := applyEntry_of ha
            have hf := commitApply_frame e.key a (s.modInq fun _ => t)
            exact State.recordsMatchBut_congr
              (s := (s.modInq fun _ => t).setRecord { a.record with
                deadline := staleDeadline s.now s.lay.global.staleLimit a.record.state })
              (read_of_frame (fun s => s.lay.fields) hf rfl)
              (read_of_frame (fun s => s.lay.prog) hf rfl)
              (read_of_frame (fun s => s.ptb.marks) hf rfl) (commitApply_records _ _ _)
              (hq.setRecord hr hkey hrefs hmarks (hQ.applied e r a _ _ ha (hq.1.key hr).2))
        · exact hq
    · exact h

/-! ## Layout records -/

/-- The field table follows the changes of a FIELD record. -/
theorem changeIndex_fields (s : State) (c : Nat × EntryRead) :
    (changeIndex s c).lay = { s.lay with fields := changeTable s.lay.fields c } := by
  have hunbind : (unbind c.1 s).lay = { s.lay with fields := Tab.erase c.1 s.lay.fields } := by
    unfold unbind
    split
    · next h => rw [Tab.erase_of_look_none h]
    · rw [unbindCompose_frame]; rfl
  unfold changeIndex changeTable
  split
  · exact hunbind
  · unfold bindField
    dsimp only
    have hbind (f : Field) : ((unbind c.1 s).modLay fun l =>
        { l with fields := Tab.insert c.1 f l.fields }).lay =
          { s.lay with fields := Tab.insert c.1 f s.lay.fields } := by
      rw [State.modLay_lay, hunbind, Tab.insert_erase]
    split
    · exact hbind _
    · split
      · exact hbind _
      · exact hbind _

theorem foldl_changeIndex_lay (run : List (Nat × EntryRead)) (s : State) :
    (run.foldl changeIndex s).lay =
      { s.lay with fields := run.foldl changeTable s.lay.fields } := by
  induction run generalizing s with
  | nil => rfl
  | cons c run ih => rw [List.foldl_cons, ih, changeIndex_fields]; rfl

theorem rising_foldl_changeTable (run : List (Nat × EntryRead)) {t : Tab Field}
    (h : Tab.rising t = true) : Tab.rising (run.foldl changeTable t) = true := by
  induction run generalizing t with
  | nil => exact h
  | cons c run ih =>
    refine ih ?_
    unfold changeTable
    split
    · exact Tab.rising_erase _ h
    · exact Tab.rising_insert _ _ h

theorem look_changeTable (t : Tab Field) (c : Nat × EntryRead) (j : Nat) :
    Tab.look j (changeTable t c) = if j = c.1 then c.2.field? else Tab.look j t := by
  unfold changeTable
  split
  · next h => rw [Tab.look_erase, h]; rfl
  · next f h => rw [Tab.look_insert, h]; rfl

/-- A key that a run of changes neither releases nor binds keeps its fields. -/
theorem filter_foldl_changeTable {k : Key} (run : List (Nat × EntryRead)) {t : Tab Field}
    (hr : Tab.rising t = true) (hk : k ∉ runKeys t run) :
    (run.foldl changeTable t).filter (fun e : Nat × Field => decide (e.2.key = k)) =
      t.filter (fun e : Nat × Field => decide (e.2.key = k)) := by
  induction run generalizing t with
  | nil => rfl
  | cons c run ih =>
    have hkeys : ∀ x, x ∈ runKeys t (c :: run) ↔
        x ∈ ((Tab.look c.1 t).map Field.key).toList ++ c.2.key?.toList ∨ x ∈ runKeys t run := by
      intro x
      simp only [runKeys, List.flatMap_cons, List.mem_append]
    rw [hkeys, not_or] at hk
    obtain ⟨hc, hrest⟩ := hk
    simp only [List.mem_append, Option.mem_toList, not_or] at hc
    have hold (v : Field) (hv : (c.1, v) ∈ t) : decide (v.key = k) = false := by
      rw [decide_eq_false_iff_not]
      rintro rfl
      exact hc.1 (by simp [Tab.look_of_mem hr hv])
    have hnew (f : Field) (hf : c.2.field? = some f) : f.key ≠ k := by
      rintro rfl
      refine hc.2 ?_
      cases h2 : c.2 with
      | delete => rw [h2] at hf; cases hf
      | bind g => rw [h2] at hf; obtain rfl := Option.some.inj hf; rfl
    have hrising : Tab.rising (changeTable t c) = true := rising_foldl_changeTable [c] hr
    rw [List.foldl_cons, ih hrising]
    · unfold changeTable
      split
      · exact Tab.filter_erase (p := fun e : Nat × Field => decide (e.2.key = k)) hold
      · next f hf =>
        refine Tab.filter_insert (p := fun e : Nat × Field => decide (e.2.key = k)) ?_ hold
        exact decide_eq_false (hnew f (by rw [hf]; rfl))
    · intro hmem
      refine hrest ?_
      obtain ⟨d, hd, hx⟩ := List.mem_flatMap.mp hmem
      refine List.mem_flatMap.mpr ⟨d, hd, ?_⟩
      rw [List.mem_append] at hx ⊢
      refine hx.imp_left fun hx => ?_
      rw [look_changeTable] at hx
      split at hx
      · obtain ⟨f, hf, rfl⟩ := Option.map_eq_some_iff.mp (Option.mem_toList.mp hx)
        exact absurd rfl (hnew f hf)
      · exact hx

theorem refCount_fields {l : Lay} {k : Key} {fields : Tab Field}
    (h : fields.filter (fun e : Nat × Field => decide (e.2.key = k)) =
      l.fields.filter (fun e : Nat × Field => decide (e.2.key = k))) :
    refCount { l with fields := fields } k = refCount l k := by
  unfold refCount
  dsimp only
  rw [h]

theorem commitFields_records (hQ : RecordRule Q) {s : State} (run : List (Nat × EntryRead)) (pointer : Nat)
    (h : s.recordsMatchBut Q noKey noKey) :
    (commitFields run pointer s).recordsMatchBut Q noKey noKey := by
  obtain ⟨⟨h1, h2, h3, h4, h5⟩, href, hmark, hsome⟩ := h
  have hframe := foldl_changeIndex_frame run s
  have hchanged : ((run.foldl changeIndex s).modLay fun l =>
      { l with pointer := pointer }).recordsMatchBut Q (fun k => k ∈ runKeys s.lay.fields run) noKey := by
    rw [hframe]
    have hlay := foldl_changeIndex_lay run s
    have hcount (k : Key) (hk : k ∉ runKeys s.lay.fields run) :
        refCount { (run.foldl changeIndex s).lay with pointer := pointer } k = refCount s.lay k := by
      rw [hlay]
      exact refCount_fields (l := { s.lay with pointer := pointer }) (filter_foldl_changeTable run h1 hk)
    refine ⟨⟨?_, ?_, h3, h4, h5⟩, fun k r hr hk => ?_, hmark, fun k hk => ?_⟩
    · simp only [State.modLay_lay, hlay]
      exact rising_foldl_changeTable run h1
    · simp only [State.modLay_lay, hlay]
      exact h2
    · exact (href k r hr id).trans (hcount k hk).symm
    · exact (hsome k id).trans (by rw [State.modLay_lay, hcount k hk])
  have hsettled := settleKeys_settles hQ (runKeys s.lay.fields run) hchanged fun _ hk => hk
  unfold commitFields
  dsimp only
  rw [settleComposes_frame, handOver_frame]
  exact State.recordsMatchBut_congr rfl rfl rfl rfl hsettled

theorem takeField_records (hQ : RecordRule Q) {s : State} (n : Station) (r : FieldRecord)
    (h : s.recordsMatchBut Q noKey noKey) : (takeField n r s).recordsMatchBut Q noKey noKey := by
  have hrefuse (reason : Reason) : (refuseRecord 1 reason n s).recordsMatchBut Q noKey noKey :=
    State.recordsMatchBut_congr rfl rfl rfl rfl h
  unfold takeField
  split
  · exact hrefuse _
  · dsimp only
    split
    · exact hrefuse _
    · split
      · exact hrefuse _
      · split
        · exact hrefuse _
        · exact commitFields_records hQ _ _ h

/-- A key that a program entry neither names before nor after keeps its program entries. -/
theorem refCount_prog {l : Lay} {k : Key} {i : Nat} {e : ProgEntry} (hr : Tab.rising l.prog = true)
    (hold : (Tab.get defaultProg i l.prog).key ≠ some k) (hnew : e.key ≠ some k) :
    refCount { l with prog := Tab.put defaultProg i e l.prog } k = refCount l k := by
  unfold refCount
  dsimp only
  congr 2
  refine Tab.filter_put (p := fun e : Nat × ProgEntry => decide (e.2.key = some k)) (decide_eq_false hnew) fun v hv => ?_
  rw [Tab.get_of_mem _ hr hv] at hold
  exact decide_eq_false hold

theorem takeProg_records (hQ : RecordRule Q) {s : State} (n : Station) (r : CrawlProgRecord)
    (h : s.recordsMatchBut Q noKey noKey) : (takeProg n r s).recordsMatchBut Q noKey noKey := by
  unfold takeProg
  split
  · exact State.recordsMatchBut_congr rfl rfl rfl rfl h
  · next i e _ =>
    dsimp only
    split
    · exact State.recordsMatchBut_congr rfl rfl rfl rfl h
    · obtain ⟨⟨h1, h2, h3, h4, h5⟩, href, hmark, hsome⟩ := h
      refine settleKeys_settles hQ
        (R := fun k => k ∈ (Tab.get defaultProg i s.lay.prog).key.toList ++ e.key.toList) _
        ⟨⟨h1, Tab.rising_put _ _ _ h2, h3, h4, h5⟩, fun k x hx hk => ?_, hmark, fun k hk => ?_⟩
        fun _ hk => hk
      · dsimp only at hk
        rw [List.mem_append, Option.mem_toList, Option.mem_toList, not_or] at hk
        exact (href k x hx id).trans (refCount_prog h2 hk.1 hk.2).symm
      · dsimp only at hk
        rw [List.mem_append, Option.mem_toList, Option.mem_toList, not_or] at hk
        exact (hsome k id).trans (by rw [State.modLay_lay, refCount_prog h2 hk.1 hk.2])

/-! ## The other commands -/

theorem sweepStart_records (m : MarkClass) (s : State) :
    (sweepStart m s).dir.records = s.dir.records := by
  unfold sweepStart beginRefreshPass runRefreshPass
  simp only [State.modDir_dir]
  rw [refreshPass_frame]
  rfl

theorem runRefreshPass_records (deadlines : Bool) (s : State) :
    (runRefreshPass deadlines s).dir.records = s.dir.records := by
  unfold runRefreshPass
  simp only [State.modDir_dir]
  rw [refreshPass_frame]

theorem limitDeadlines_keeps (hQ : RecordRule Q) {s : State} (limit : Nat) (h : s.recordsMatchBut Q noKey noKey) :
    (s.modDir (limitDeadlines limit)).recordsMatchBut Q noKey noKey := by
  by_cases h0 : limit = 0
  · have : s.modDir (limitDeadlines limit) = s.modDir fun d =>
        { d with records := Tab.mapValues (fun _ r => { r with deadline := none }) d.records } := by
      simp [State.modDir, limitDeadlines, h0]
    rw [this]
    exact recordsMatchBut_mapValues _ (fun _ => ⟨rfl, rfl, rfl⟩) hQ.limit h
  · have : s.modDir (limitDeadlines limit) = s := by simp [State.modDir, limitDeadlines, h0]
    rwa [this]

theorem records_nil {s : State} (hfields : s.lay.fields = []) (hprog : s.lay.prog = [])
    (hmarks : Tab.rising s.ptb.marks = true) (hrecords : s.dir.records = []) :
    s.recordsMatchBut Q noKey noKey := by
  have hrec (k : Key) : s.record? k = none := by rw [State.record?, hrecords]; rfl
  have hcount (k : Key) : refCount s.lay k = 0 := by rw [refCount, hfields, hprog]; rfl
  refine ⟨⟨by rw [hfields]; rfl, by rw [hprog]; rfl, hmarks, by rw [hrecords]; rfl, by
    rw [hrecords]; simp⟩, fun k r hr => ?_, fun k r hr => ?_, fun k _ => ?_⟩
  · rw [hrec] at hr; cases hr
  · rw [hrec] at hr; cases hr
  · rw [hrec, hcount]; simp

theorem reportStation_records (hQ : RecordRule Q) (n : Station) (s : State)
    (h : s.recordsMatchBut Q noKey noKey) : (reportStation n s).recordsMatchBut Q noKey noKey := by
  have hpeer : (setPeer n (reportPeer (s.lnk.heard.contains n.toNat) (s.peer n)).1
      (s.modLnk fun l => { l with heard := NatSet.remove n.toNat l.heard })).recordsMatchBut Q
        noKey noKey := State.recordsMatchBut_congr rfl rfl rfl rfl h
  unfold reportStation
  dsimp only
  split
  · exact stationGone_records hQ n hpeer
  · exact hpeer

theorem takePresence_records (hQ : RecordRule Q) (n : Station) (k : PeerKind) (s : State)
    (h : s.recordsMatchBut Q noKey noKey) : (takePresence n k s).recordsMatchBut Q noKey noKey := by
  have hpeer : (setPeer n { s.peer n with kind := k } s).recordsMatchBut Q noKey noKey :=
    State.recordsMatchBut_congr rfl rfl rfl rfl h
  unfold takePresence
  dsimp only
  split
  · exact stationGone_records hQ n hpeer
  · exact hpeer

/-- A change of blocks that the records do not rest on. -/
theorem recordsMatchBut_of_frame {s t u : State} (hf : t = u) (hlay : u.lay = s.lay)
    (hptb : u.ptb = s.ptb) (hdir : u.dir.records = s.dir.records)
    (h : s.recordsMatchBut Q noKey noKey) : t.recordsMatchBut Q noKey noKey := by
  rw [hf]
  exact State.recordsMatchBut_congr (by rw [hlay]) (by rw [hlay]) (by rw [hptb]) hdir h

theorem recordsMatch_kept (hQ : RecordRule Q) : Kept (State.recordsMatchBut Q noKey noKey) where
  link _ _ _ := State.recordsMatchBut_congr rfl rfl rfl rfl
  counts _ _ := State.recordsMatchBut_congr rfl rfl rfl rfl
  origin _ _ := State.recordsMatchBut_congr rfl rfl rfl rfl
  port _ _ _ _ _ := State.recordsMatchBut_congr rfl rfl rfl rfl
  tables _ _ hf _ hp _ := State.recordsMatchBut_congr hf hp rfl rfl
  reset _ _ := State.recordsMatchBut_congr rfl rfl rfl rfl
  released _ _ _ _ := records_nil rfl rfl rfl rfl
  sweep m s := State.recordsMatchBut_congr
    (read_of_frame (fun s => s.lay.fields) (sweepStart_frame m s) rfl)
    (read_of_frame (fun s => s.lay.prog) (sweepStart_frame m s) rfl)
    (read_of_frame (fun s => s.ptb.marks) (sweepStart_frame m s) rfl) (sweepStart_records m s)
  deadlines s := State.recordsMatchBut_congr
    (read_of_frame (fun s => s.lay.fields) (runRefreshPass_frame true s) rfl)
    (read_of_frame (fun s => s.lay.prog) (runRefreshPass_frame true s) rfl)
    (read_of_frame (fun s => s.ptb.marks) (runRefreshPass_frame true s) rfl)
    (runRefreshPass_records true s)
  status s := recordsMatchBut_of_frame (offerStatus_frame s) rfl rfl rfl
  report := reportStation_records hQ
  presence := takePresence_records hQ
  mark n m _ := setMark_records hQ n m
  tick n b _ := takeTick_records hQ n b
  apply _ := takeHead_records hQ
  stale s := recordsMatchBut_mapValues (expireStale s.now) (expireStale_keeps _) (hQ.expire _)
  show_ n w p s := recordsMatchBut_of_frame (takeShow_frame n w p s) rfl rfl rfl
  release w s _ := recordsMatchBut_of_frame (takeRelease_frame w s) rfl rfl rfl
  run n w s _ := recordsMatchBut_of_frame (takeRun_frame n w s) rfl rfl rfl
  halt _ _ _ := State.recordsMatchBut_congr rfl rfl rfl rfl
  freeze _ _ _ := State.recordsMatchBut_congr rfl rfl rfl rfl
  thaw w s _ := recordsMatchBut_of_frame (takeThaw_frame w s) rfl rfl rfl
  override m w s _ := recordsMatchBut_of_frame (takeOverride_frame m w s) rfl rfl rfl
  dwell w s _ := recordsMatchBut_of_frame (takeDwellExpiry_frame w s) rfl rfl rfl
  clear s h := records_nil rfl rfl h.1.2.2.1 rfl
  field n r _ := takeField_records hQ n r
  label n r s :=
    State.recordsMatchBut_congr (read_of_frame (fun s => s.lay.fields) (takeLabel_frame n r s) rfl)
      (read_of_frame (fun s => s.lay.prog) (takeLabel_frame n r s) rfl)
      (read_of_frame (fun s => s.ptb.marks) (takeLabel_frame n r s) rfl)
      (read_of_frame (fun s => s.dir.records) (takeLabel_frame n r s) rfl)
  window n r s := recordsMatchBut_of_frame (takeWindow_frame n r s) rfl rfl rfl
  prog n r _ := takeProg_records hQ n r
  limit limit _ := limitDeadlines_keeps hQ limit
  handoff n b s := recordsMatchBut_of_frame (takeHandoff_frame n b s) rfl rfl rfl
  crawlText b s := recordsMatchBut_of_frame (takeCrawlText_frame b s) rfl rfl rfl
  flush s := recordsMatchBut_of_frame (flushCrawl_frame s) rfl rfl rfl
  crawl s := recordsMatchBut_of_frame (takeStep_frame s) rfl rfl rfl
  paint s := recordsMatchBut_of_frame (servePaint_frame s) rfl rfl rfl
  commit s := recordsMatchBut_of_frame (commitPaint_frame s) rfl rfl rfl
  pending _ := State.recordsMatchBut_congr rfl rfl rfl rfl
  highlights _ := State.recordsMatchBut_congr rfl rfl rfl rfl
  grant s := recordsMatchBut_of_frame (grantNext_frame s) rfl rfl rfl
  transfer s := recordsMatchBut_of_frame (completeWrite_frame s) rfl rfl rfl

/-- What holds of a record by itself: its source is not its alternate, a deadline is of a LIVE one. -/
def Record.sound (r : Record) : Prop :=
  (∀ n, r.source = some n → r.alternate ≠ some n) ∧ r.settled

theorem switchRecord_sound (s : State) (gone : Station) (r : Record) :
    (switchRecord s gone r).sound := by
  unfold switchRecord Record.sound Record.settled
  dsimp only
  split
  · exact ⟨by simp, by simp⟩
  · split <;> exact ⟨by simp, by simp⟩

theorem sourceFilter_sound (origin : Station) {r : Record} (h : r.sound) :
    (sourceFilter origin r).1.sound := by
  unfold sourceFilter
  split
  · refine ⟨fun n hn => ?_, h.2⟩
    obtain rfl := Option.some.inj hn
    dsimp only
    split
    · simp
    · assumption
  · next t ht =>
    split
    · exact h
    · next hne =>
      refine ⟨fun n hn => ?_, h.2⟩
      have hn : r.source = some n := hn
      rw [ht] at hn
      obtain rfl := Option.some.inj hn
      simpa using Ne.symm hne

theorem expireStale_sound (now : Sweep) {r : Record} (h : r.sound) : (expireStale now r).sound := by
  unfold expireStale
  split
  · exact ⟨h.1, by simp [Record.settled]⟩
  · exact h

theorem Record.sound_rule : RecordRule Record.sound where
  fresh _ _ _ := ⟨by simp [newRecord], by simp [newRecord, Record.settled]⟩
  refs _ _ h := h
  marks _ _ h := h
  switch s gone r _ := switchRecord_sound s gone r
  alternate _ h := ⟨by simp, h.2⟩
  limit _ h := ⟨h.1, by simp [Record.settled]⟩
  expire now _ := expireStale_sound now
  filter origin _ := sourceFilter_sound origin
  dropped _ h := ⟨h.1, by simp [Record.settled]⟩
  applied e r a now limit ha h := by
    obtain ⟨-, -, -, hsource, halternate⟩ := applyEntry_of ha
    refine ⟨?_, fun hd => ?_⟩
    · have := h.1
      rwa [← hsource, ← halternate] at this
    · have hd : staleDeadline now limit a.record.state ≠ none := hd
      unfold staleDeadline at hd
      split at hd
      · next hc => exact hc.1
      · exact absurd rfl hd

/-! ## Peers -/

theorem peer_setPeer (n m : Station) (e : Peer) (s : State) :
    (setPeer n e s).peer m = if m = n then e else s.peer m := by
  have : (m.toNat = n.toNat) = (m = n) := by rw [eq_iff_iff]; exact BitVec.toNat_inj
  unfold State.peer setPeer
  rw [State.modPtb_ptb, Tab.get_put]
  simp only [this]

theorem peersCount_setPeer {s : State} (h : s.peersCount) {n : Station} {e : Peer} (he : e.counts) :
    (setPeer n e s).peersCount := by
  intro m
  rw [peer_setPeer]
  split
  · exact he
  · exact h m

theorem peersCount_congr {s t : State} (ht : t.ptb.peers = s.ptb.peers) (h : s.peersCount) :
    t.peersCount := fun n => by
  have : t.peer n = s.peer n := by rw [State.peer, ht]; rfl
  rw [this]
  exact h n

theorem reportPeer_counts (heard : Bool) {e : Peer} (h : e.counts) :
    (reportPeer heard e).1.counts := by
  obtain ⟨hle, hpresent, hsilent⟩ := h
  unfold reportPeer
  split
  · simp [Peer.counts]
  · split
    · next hs =>
      simp only [Peer.counts, nextMiss, hs]
      simp
    · next hs =>
      split
      · simp only [Peer.counts, nextMiss, hs]
        refine ⟨by omega, fun _ => by omega, by simp⟩
      · simp [Peer.counts]
    · next hs => simp [Peer.counts, hs]

theorem stationGone_peers (n : Station) (s : State) :
    (stationGone n s).ptb.peers = s.ptb.peers := by
  unfold stationGone releaseOrigin
  rw [State.modPtb_ptb, setMark_ptb, switchSources_frame]

/-- A change of blocks that the peer table is not in. -/
theorem peersCount_of_frame {s t u : State} (hf : t = u) (hu : u.ptb.peers = s.ptb.peers)
    (h : s.peersCount) : t.peersCount := by
  rw [hf]
  exact peersCount_congr hu h

theorem reportStation_peersCount (n : Station) (s : State) (h : s.peersCount) :
    (reportStation n s).peersCount := by
  have hpeer : (setPeer n (reportPeer (s.lnk.heard.contains n.toNat) (s.peer n)).1
      (s.modLnk fun l => { l with heard := NatSet.remove n.toNat l.heard })).peersCount :=
    peersCount_setPeer (peersCount_congr rfl h) (reportPeer_counts _ (h n))
  unfold reportStation
  dsimp only
  split
  · exact peersCount_congr (stationGone_peers _ _) hpeer
  · exact hpeer

theorem takePresence_peersCount (n : Station) (k : PeerKind) (s : State) (h : s.peersCount) :
    (takePresence n k s).peersCount := by
  have hpeer : (setPeer n { s.peer n with kind := k } s).peersCount := peersCount_setPeer h (h n)
  unfold takePresence
  dsimp only
  split
  · exact peersCount_congr (stationGone_peers _ _) hpeer
  · exact hpeer

theorem peersCount_kept : Kept State.peersCount where
  link _ _ _ := peersCount_congr rfl
  counts _ _ := peersCount_congr rfl
  origin _ _ := peersCount_congr rfl
  port _ _ _ _ _ := peersCount_congr rfl
  tables _ _ _ _ _ _ := peersCount_congr rfl
  reset _ _ := peersCount_congr rfl
  released _ _ _ _ _ := by
    show resetPeer.counts
    simp [Peer.counts, resetPeer]
  sweep m s := peersCount_of_frame (sweepStart_frame m s) rfl
  deadlines s := peersCount_of_frame (runRefreshPass_frame true s) rfl
  status s := peersCount_of_frame (offerStatus_frame s) rfl
  report := reportStation_peersCount
  presence := takePresence_peersCount
  mark n m s := peersCount_congr (by rw [setMark_ptb])
  tick n b s := peersCount_of_frame (takeTick_frame n b s) rfl
  apply s := peersCount_of_frame (takeHead_frame s) rfl
  stale _ := peersCount_congr rfl
  show_ n w p s := peersCount_of_frame (takeShow_frame n w p s) rfl
  release w s _ := peersCount_of_frame (takeRelease_frame w s) rfl
  run n w s _ := peersCount_of_frame (takeRun_frame n w s) rfl
  halt _ _ _ := peersCount_congr rfl
  freeze _ _ _ := peersCount_congr rfl
  thaw w s _ := peersCount_of_frame (takeThaw_frame w s) rfl
  override m w s _ := peersCount_of_frame (takeOverride_frame m w s) rfl
  dwell w s _ := peersCount_of_frame (takeDwellExpiry_frame w s) rfl
  clear _ := peersCount_congr rfl
  field n r s := peersCount_of_frame (takeField_frame n r s) rfl
  label n r s := peersCount_of_frame (takeLabel_frame n r s) rfl
  window n r s := peersCount_of_frame (takeWindow_frame n r s) rfl
  prog n r s := peersCount_of_frame (takeProg_frame n r s) rfl
  limit _ _ := peersCount_congr rfl
  handoff n b s := peersCount_of_frame (takeHandoff_frame n b s) rfl
  crawlText b s := peersCount_of_frame (takeCrawlText_frame b s) rfl
  flush s := peersCount_of_frame (flushCrawl_frame s) rfl
  crawl s := peersCount_of_frame (takeStep_frame s) rfl
  paint s := peersCount_of_frame (servePaint_frame s) rfl
  commit s := peersCount_of_frame (commitPaint_frame s) rfl
  pending _ := peersCount_congr rfl
  highlights _ := peersCount_congr rfl
  grant s := peersCount_of_frame (grantNext_frame s) rfl
  transfer s := peersCount_of_frame (completeWrite_frame s) rfl

/-! ## The directory and the peers -/

theorem directorySound_iff (s : State) :
    s.directorySound ↔ s.recordsMatchBut Record.sound noKey noKey ∧ s.peersCount := by
  rw [← recordsSound_iff]
  constructor
  · rintro ⟨hmatch, hsources, hdeadlines, hpeers⟩
    exact ⟨⟨hmatch, fun e he => ⟨hsources e he, hdeadlines e he⟩⟩, hpeers⟩
  · rintro ⟨⟨hmatch, hsound⟩, hpeers⟩
    exact ⟨hmatch, fun e he => (hsound e he).1, fun e he => (hsound e he).2, hpeers⟩

/-- Settles O59: each block's effect keeps the records in step and the peers' counts, and so does every
step. -/
theorem directoryStaysSound : Obligations.DirectoryStaysSound := fun s t hs he => by
  rw [directorySound_iff] at hs ⊢
  exact ⟨(recordsMatch_kept Record.sound_rule).step
      (fun _ _ => State.recordsMatchBut_congr rfl rfl rfl rfl) hs.1 he,
    peersCount_kept.step (fun _ _ => peersCount_congr rfl) hs.2 he⟩

end Sys2Proof.Machine

/-! PROOFS. The length of a quote entry (spec/09_crawl_chain.md section 9.6): a record's values and the
figures made from them have few digits. -/

namespace Sys2Proof.Machine

/-! ## Digits -/

@[simp] theorem length_fixedDigits (n x : Nat) : (fixedDigits n x).length = n := by
  induction n generalizing x with
  | zero => rfl
  | succ n ih => simp [fixedDigits, ih]

theorem digitCount_le (fuel : Nat) {n x : Nat} (h : x < 10 ^ (n + 1)) : digitCount fuel x ≤ n + 1 := by
  induction fuel generalizing n x with
  | zero => simp [digitCount]
  | succ fuel ih =>
    unfold digitCount
    split
    · omega
    · next hx =>
      cases n with
      | zero => omega
      | succ n =>
        have : x / 10 < 10 ^ (n + 1) := by
          rw [Nat.div_lt_iff_lt_mul (by norm_num)]
          calc x < 10 ^ (n + 1 + 1) := h
            _ = 10 ^ (n + 1) * 10 := by ring
        have := ih this
        omega

theorem length_decimal_le {n x : Nat} (h : x < 10 ^ (n + 1)) : (decimal x).length ≤ n + 1 := by
  rw [decimal, length_fixedDigits]
  exact digitCount_le x h

/-- An ungrouped DEC text is a sign, the digits before the point, the point and the decimals. -/
theorem length_decText_le {n : Int} {m d : Nat} (plus : Bool) (h : n.natAbs < 10 ^ (m + 1)) :
    (decText n d plus false).length ≤ m + d + 3 := by
  have hint : (decimal (n.natAbs / 10 ^ d)).length ≤ m + 1 :=
    length_decimal_le ((Nat.div_le_self _ _).trans_lt h)
  have hsign : (if n < 0 then [chMinus] else if 0 < n ∧ plus = true then [chPlus] else []).length ≤ 1 := by
    split
    · simp
    · split <;> simp
  have hfrac : (if 0 < d then chPoint :: fixedDigits d (n.natAbs % 10 ^ d) else []).length ≤ d + 1 := by
    split <;> simp
  simp only [decText, integerPart, List.length_append, Bool.false_eq_true, if_false]
  omega

theorem natAbs_roundDiv_le (n : Int) (d : Nat) : (roundDiv n d).natAbs ≤ n.natAbs + 1 := by
  have hq : (2 * n.natAbs + d) / (2 * d) ≤ n.natAbs + 1 := by
    obtain rfl | hd := Nat.eq_zero_or_pos d
    · simp
    · rw [Nat.div_le_iff_le_mul (by omega)]
      have hmul : n.natAbs ≤ n.natAbs * d := Nat.le_mul_of_pos_right _ hd
      have : (n.natAbs + 1) * (2 * d) = 2 * (n.natAbs * d) + 2 * d := by ring
      omega
  unfold roundDiv
  dsimp only
  split
  · rwa [Int.natAbs_neg, Int.natAbs_natCast]
  · rwa [Int.natAbs_natCast]

/-! ## Figures -/

/-- Every stored item is within the range of its kind. -/
def itemsInRange (items : Tab Stored) : Prop := ∀ x ∈ items, x.2.content.inRange

theorem natAbs_alignTo_le {m : Int} {big s : Nat} (hm : -999999999 ≤ m ∧ m ≤ 999999999)
    (hbig : big ≤ 7) : (alignTo big s m).natAbs ≤ 999999999 * 10 ^ 7 := by
  rw [alignTo, Int.natAbs_mul, Int.natAbs_pow]
  exact Nat.mul_le_mul (by omega) (Nat.pow_le_pow_right (by norm_num) (by omega))

theorem pricePart_inRange {v : Stored} (h : v.content.inRange) :
    -999999999 ≤ (pricePart v).1 ∧ (pricePart v).1 ≤ 999999999 ∧ (pricePart v).2.1 ≤ 7 := by
  unfold pricePart
  split
  · next hv =>
    rw [hv] at h
    exact h
  all_goals simp

theorem natAbs_exactDiff_le {a b : Stored} (ha : a.content.inRange) (hb : b.content.inRange) :
    (exactDiff (pricePart a).1 (pricePart a).2.1 (pricePart b).1 (pricePart b).2.1).1.natAbs ≤
        2 * (999999999 * 10 ^ 7) ∧
      (exactDiff (pricePart a).1 (pricePart a).2.1 (pricePart b).1 (pricePart b).2.1).2 ≤ 7 := by
  obtain ⟨ha1, ha2, ha3⟩ := pricePart_inRange ha
  obtain ⟨hb1, hb2, hb3⟩ := pricePart_inRange hb
  have hbig : max (pricePart a).2.1 (pricePart b).2.1 ≤ 7 := max_le ha3 hb3
  refine ⟨?_, hbig⟩
  have h1 := natAbs_alignTo_le (s := (pricePart a).2.1) ⟨ha1, ha2⟩ hbig
  have h2 := natAbs_alignTo_le (s := (pricePart b).2.1) ⟨hb1, hb2⟩ hbig
  simp only [exactDiff]
  omega

theorem Tab.inRange_of_look {items : Tab Stored} (h : itemsInRange items) {k : Nat} {v : Stored}
    (hv : Tab.look k items = some v) : v.content.inRange := h _ (Tab.mem_of_look hv)

/-- The numerator of the percentage change has at most 19 digits. -/
theorem pctQuotient_le {items : Tab Stored} (h : itemsInRange items) {num : Int} {den : Nat} {c : Bool}
    (hq : pctQuotient items = some (num, den, c)) : num.natAbs ≤ 2 * (999999999 * 10 ^ 7) * 100 := by
  unfold pctQuotient at hq
  split at hq
  · next x y hx hy =>
    have hdiff := (natAbs_exactDiff_le (Tab.inRange_of_look h hx) (Tab.inRange_of_look h hy)).1
    dsimp only at hq
    split at hq
    · cases hq
    · obtain ⟨rfl, -, -⟩ := Prod.mk.injEq .. ▸ Option.some.inj hq
      rw [Int.natAbs_mul]
      exact Nat.mul_le_mul hdiff (by norm_num)
  · cases hq

/-- The digits of a stored or derived value at its own scale are at most 23. -/
theorem natAbs_digitsAt_lt {items : Tab Stored} (h : itemsInRange items) {c : Content}
    (hc : c.inRange) : (digitsAt (exactOf items c) c.scale).natAbs < 10 ^ 23 ∧ c.scale ≤ 7 := by
  have hlt {m : Int} (hm : -999999999 ≤ m ∧ m ≤ 999999999) : m.natAbs < 10 ^ 23 := by omega
  cases c with
  | price m s =>
    obtain ⟨h1, h2, h3⟩ := hc
    refine ⟨?_, h3⟩
    simpa [exactOf, digitsAt, Content.scale] using hlt ⟨h1, h2⟩
  | percentage p d =>
    obtain ⟨h1, h2, h3⟩ := hc
    refine ⟨?_, h3.trans (by norm_num)⟩
    simp only [exactOf, Content.scale]
    cases hq : pctQuotient items with
    | none => simpa [digitsAt] using hlt ⟨h1, h2⟩
    | some q =>
      obtain ⟨num, den, clamped⟩ := q
      have hnum := pctQuotient_le h hq
      have hscale : (10 : Nat) ^ d ≤ 10 ^ 4 := Nat.pow_le_pow_right (by norm_num) h3
      have hround := natAbs_roundDiv_le (num * (10 : Int) ^ d) den
      rw [Int.natAbs_mul, Int.natAbs_pow] at hround
      have hmul := Nat.mul_le_mul hnum hscale
      simp only [digitsAt]
      have : (10 : Int).natAbs = 10 := rfl
      rw [this] at hround
      omega
  | size n =>
    have hc : n < 2 ^ 32 := hc
    refine ⟨?_, Nat.zero_le _⟩
    simp only [exactOf, digitsAt, Content.scale, le_refl, if_true, Nat.sub_self, pow_zero, mul_one]
    omega
  | seconds n =>
    have hc : n < 86400 := hc
    refine ⟨?_, Nat.zero_le _⟩
    simp only [exactOf, digitsAt, Content.scale, le_refl, if_true, Nat.sub_self, pow_zero, mul_one]
    omega
  | code n =>
    have hc : n < 16 := hc
    refine ⟨?_, Nat.zero_le _⟩
    simp only [exactOf, digitsAt, Content.scale, le_refl, if_true, Nat.sub_self, pow_zero, mul_one]
    omega

/-- What a value shows of its contents is within the range of their kind. -/
def Value.inRange : Value → Prop
  | .absent => True
  | .clamped _ => True
  | .present c => c.inRange

theorem length_naturalText_le {items : Tab Stored} (h : itemsInRange items) {v : Value}
    (hv : v.inRange) (plus : Bool) : (naturalText items v none plus).length ≤ 32 := by
  cases v with
  | absent => simp [naturalText]
  | clamped c => simp [naturalText]
  | present c =>
    obtain ⟨hdigits, hscale⟩ := natAbs_digitsAt_lt h (c := c) hv
    have := length_decText_le (m := 22) (d := c.scale) plus hdigits
    simp only [naturalText, Option.getD_none]
    omega

theorem storedValue_inRange {items : Tab Stored} (h : itemsInRange items) (i : Item) :
    (storedValue items i).inRange := by
  unfold storedValue
  split
  · trivial
  · next v hv =>
    split
    · trivial
    · exact Tab.inRange_of_look h hv

theorem reduceScale_inRange (r : Int) {big : Nat} (hbig : big ≤ 7) (fuel k : Nat) :
    (reduceScale r big fuel k).inRange := by
  induction fuel generalizing k with
  | zero => trivial
  | succ fuel ih =>
    unfold reduceScale
    dsimp only
    split
    · next hle =>
      have : (maxMantissa.natAbs : Nat) = 999999999 := rfl
      rw [this] at hle
      exact ⟨by omega, by omega, by omega⟩
    · exact ih _

theorem difference_inRange {items : Tab Stored} (h : itemsInRange items) (a b : Item) :
    (difference items a b).inRange := by
  unfold difference
  split
  · next x y hx hy =>
    obtain ⟨-, hbig⟩ := natAbs_exactDiff_le (Tab.inRange_of_look h hx) (Tab.inRange_of_look h hy)
    dsimp only
    split
    · trivial
    · unfold fitPrice
      split
      · next hle =>
        have : (maxMantissa.natAbs : Nat) = 999999999 := rfl
        rw [this] at hle
        exact ⟨by omega, by omega, hbig⟩
      · exact reduceScale_inRange _ hbig _ _
  · trivial

/-! ## Quote entries -/

theorem length_trimLabel_le (t : Text) : (trimLabel t).length ≤ t.length := by
  unfold trimLabel
  rw [List.length_reverse]
  exact (List.length_dropWhile_le _ _).trans_eq List.length_reverse

/-- A quote entry is a label, a space, two figures with a space between them and the gap. -/
theorem length_quoteEntry_le (g : Global) (p : Policy) {label : Text} {r : Option Record}
    (hlabel : label.length ≤ 8) (hr : ∀ x, r = some x → itemsInRange x.items) :
    (quoteEntry g p label r).length ≤ 80 := by
  have htrim := length_trimLabel_le label
  have hgap : quoteGap.length = 3 := rfl
  have hnone : noQuote.length = 3 := rfl
  unfold quoteEntry
  dsimp only
  cases r with
  | none =>
    simp only [quotedLast, crawlText, List.length_map, List.length_append, List.length_cons,
      List.length_nil, hgap, hnone]
    omega
  | some x =>
    have hx := hr x rfl
    split
    · simp only [crawlText, List.length_map, List.length_append, List.length_cons,
        List.length_nil, hgap, hnone]
      omega
    · next last hlast =>
      have hval : last.inRange := by
        unfold quotedLast at hlast
        dsimp only at hlast
        split at hlast
        · obtain rfl := Option.some.inj hlast
          exact storedValue_inRange hx _
        · cases hlast
      have htext := length_naturalText_le hx hval false
      have hnet : (netPart g p x.items (netChange (some x))).length ≤ 33 := by
        have := length_naturalText_le hx (difference_inRange hx .last .close) true
        unfold netPart netChange
        dsimp only
        split
        · simp
        · simp only [crawlText, List.length_map, List.length_append, List.length_cons,
            List.length_nil]
          omega
      simp only [Option.map_some, Option.getD_some, crawlText, List.length_map, List.length_append,
        List.length_cons, List.length_nil, hgap]
      omega

end Sys2Proof.Machine

/-! PROOFS. The rooms of the stores that the layout fills: the directory, the label store, the layout
pointer, the crawl text queue and the field indices. -/

namespace Sys2Proof.Machine

/-! ## The keys the layout names -/

theorem NatSet.mem_insert {n m : Nat} {s : NatSet} : m ∈ NatSet.insert n s ↔ m = n ∨ m ∈ s := by
  induction s with
  | nil => simp [NatSet.insert]
  | cons a s ih =>
    unfold NatSet.insert
    split
    · simp
    · split
      · next h =>
        subst h
        simp
      · rw [List.mem_cons, List.mem_cons, ih]
        tauto

theorem NatSet.pairwise_insert {n : Nat} {s : NatSet} (h : s.Pairwise (· < ·)) :
    (NatSet.insert n s).Pairwise (· < ·) := by
  induction s with
  | nil => simp [NatSet.insert]
  | cons a s ih =>
    obtain ⟨ha, hs⟩ := List.pairwise_cons.mp h
    unfold NatSet.insert
    split
    · next hlt =>
      refine List.pairwise_cons.mpr ⟨fun b hb => ?_, h⟩
      obtain rfl | hb := List.mem_cons.mp hb
      · exact hlt
      · exact hlt.trans (ha b hb)
    · split
      · exact h
      · refine List.pairwise_cons.mpr ⟨fun b hb => ?_, ih hs⟩
        obtain rfl | hb := NatSet.mem_insert.mp hb
        · omega
        · exact ha b hb

theorem NatSet.foldl_insert (l : List Nat) (s : NatSet) :
    (∀ m, m ∈ l.foldl (fun s n => NatSet.insert n s) s ↔ m ∈ l ∨ m ∈ s) ∧
      (s.Pairwise (· < ·) → (l.foldl (fun s n => NatSet.insert n s) s).Pairwise (· < ·)) := by
  induction l generalizing s with
  | nil => simp
  | cons n l ih =>
    obtain ⟨hmem, hpair⟩ := ih (NatSet.insert n s)
    refine ⟨fun m => ?_, fun h => hpair (NatSet.pairwise_insert h)⟩
    rw [List.foldl_cons, hmem, NatSet.mem_insert, List.mem_cons]
    tauto

theorem NatSet.mem_ofList {m : Nat} {l : List Nat} : m ∈ NatSet.ofList l ↔ m ∈ l := by
  rw [NatSet.ofList, (NatSet.foldl_insert l []).1]
  simp

theorem NatSet.nodup_ofList (l : List Nat) : (NatSet.ofList l).Nodup :=
  ((NatSet.foldl_insert l []).2 List.Pairwise.nil).imp Nat.ne_of_lt

theorem nodup_namedKeys (l : Lay) : (namedKeys l).Nodup := NatSet.nodup_ofList _

theorem mem_namedKeys (l : Lay) (k : Key) : k.toNat ∈ namedKeys l ↔ 0 < refCount l k := by
  rw [namedKeys, NatSet.mem_ofList, refCount, Nat.add_pos_iff_pos_or_pos, List.length_pos_iff_exists_mem,
    List.length_pos_iff_exists_mem, List.mem_append]
  refine or_congr ?_ ?_
  · simp only [List.mem_map, List.mem_filter, decide_eq_true_eq, BitVec.toNat_inj]
  · simp only [List.mem_filterMap, Option.map_eq_some_iff, List.mem_filter, decide_eq_true_eq,
      BitVec.toNat_inj]
    constructor
    · rintro ⟨e, he, _, hk, rfl⟩
      exact ⟨e, he, hk⟩
    · rintro ⟨e, he, hk⟩
      exact ⟨e, he, k, hk, rfl⟩

theorem exists_key_of_mem_namedKeys {l : Lay} {n : Nat} (h : n ∈ namedKeys l) :
    ∃ k : Key, k.toNat = n := by
  rw [namedKeys, NatSet.mem_ofList, List.mem_append, List.mem_map, List.mem_filterMap] at h
  obtain ⟨e, -, he⟩ | ⟨e, -, he⟩ := h
  · exact ⟨_, he⟩
  · obtain ⟨k, -, hk⟩ := Option.map_eq_some_iff.mp he
    exact ⟨k, hk⟩

theorem Tab.nodup_keys {α : Type} {t : Tab α} (h : Tab.rising t = true) :
    (t.map Prod.fst).Nodup := by
  induction t with
  | nil => exact List.nodup_nil
  | cons e t ih =>
    obtain ⟨habove, ht⟩ := (Tab.rising_cons e.1 e.2 t).mp h
    rw [List.map_cons, List.nodup_cons]
    refine ⟨fun hmem => ?_, ih ht⟩
    obtain ⟨x, hx, he⟩ := List.mem_map.mp hmem
    exact (habove x hx).ne he.symm

/-- There are as many records as keys that the layout names (R54). -/
theorem State.recordsMatchBut.length {Q : Record → Prop} {s : State}
    (h : s.recordsMatchBut Q noKey noKey) : s.dir.records.length = (namedKeys s.lay).length := by
  obtain ⟨ht, -, -, hsome⟩ := h
  have hperm : (s.dir.records.map Prod.fst).Perm (namedKeys s.lay) := by
    refine (List.perm_ext_iff_of_nodup (Tab.nodup_keys ht.2.2.2.1)
      (nodup_namedKeys s.lay)).mpr fun n => ⟨fun hn => ?_, fun hn => ?_⟩
    · obtain ⟨e, he, rfl⟩ := List.mem_map.mp hn
      rw [(ht.2.2.2.2 e he).1, mem_namedKeys, ← hsome _ id, ht.record_of_mem he]
      rfl
    · obtain ⟨k, rfl⟩ := exists_key_of_mem_namedKeys hn
      rw [mem_namedKeys, ← hsome k id] at hn
      obtain ⟨r, hr⟩ := Option.isSome_iff_exists.mp hn
      exact List.mem_map.mpr ⟨_, Tab.mem_of_look hr, rfl⟩
  simpa using hperm.length_eq

/-! ## The layout's own rooms -/

/-- The label store and the layout pointer within their ranges, the program's labels of at most eight
codes, and no more keys named than the directory has room for. -/
def Lay.stored (l : Lay) : Prop :=
  labelChars l.labels ≤ 2048 ∧ l.pointer ≤ 512 ∧ (∀ e ∈ l.prog, e.2.label.length ≤ 8) ∧
    overFull l = false

theorem overFull_congr {l m : Lay} (hf : m.fields = l.fields) (hp : m.prog = l.prog) :
    overFull m = overFull l := by
  rw [overFull, namedKeys, hf, hp]
  rfl

theorem Lay.stored_congr {l m : Lay} (hf : m.fields = l.fields) (hl : m.labels = l.labels)
    (hp : m.prog = l.prog) (hi : m.pointer = l.pointer) (h : l.stored) : m.stored := by
  rw [Lay.stored, hl, hi, hp, overFull_congr hf hp]
  exact h

theorem default_stored : defaultLay.stored :=
  ⟨by decide, by decide, by simp [defaultLay], by decide⟩

theorem commitFields_lay (run : List (Nat × EntryRead)) (pointer : Nat) (s : State) :
    (commitFields run pointer s).lay =
      { s.lay with fields := run.foldl changeTable s.lay.fields, pointer := pointer } := by
  unfold commitFields
  dsimp only
  rw [settleComposes_frame, handOver_frame, settleKeys_frame]
  simp only [State.modLay_lay]
  rw [foldl_changeIndex_lay]

theorem takeField_stored (n : Station) (r : FieldRecord) (s : State) (h : s.lay.stored) :
    (takeField n r s).lay.stored := by
  unfold takeField
  split
  · exact h
  · dsimp only
    split
    · exact h
    · next hroom =>
      split
      · exact h
      · split
        · exact h
        · next hfull =>
          rw [commitFields_lay]
          obtain ⟨hl, -, hp, -⟩ := h
          refine ⟨hl, not_lt.mp hroom, hp, ?_⟩
          rw [Bool.not_eq_true] at hfull
          exact (overFull_congr rfl rfl).trans hfull

theorem commitLabel_lay (i : Nat) (new : Option LabelRun) (s : State) :
    (commitLabel i new s).lay = { s.lay with labels := writeRunAt i new s.lay.labels } := by
  unfold commitLabel
  dsimp only
  rw [handOver_frame]
  rfl

theorem takeLabel_stored (n : Station) (r : LabelRecord) (s : State) (h : s.lay.stored) :
    (takeLabel n r s).lay.stored := by
  unfold takeLabel
  split
  · exact h
  · split
    · exact h
    · next hroom =>
      rw [commitLabel_lay]
      exact ⟨not_lt.mp hroom, h.2.1, h.2.2.1, h.2.2.2⟩

theorem readProg_label {r : CrawlProgRecord} {i : Nat} {e : ProgEntry}
    (h : readProg r = some (i, e)) : e.label.length ≤ 8 := by
  obtain ⟨j, -, hj⟩ := Option.map_eq_some_iff.mp h
  obtain ⟨-, rfl⟩ := Prod.mk.injEq .. ▸ hj
  exact List.length_take_le _ _

theorem takeProg_stored (n : Station) (r : CrawlProgRecord) (s : State) (h : s.lay.stored) :
    (takeProg n r s).lay.stored := by
  unfold takeProg
  split
  · exact h
  · next i e he =>
    dsimp only
    split
    · exact h
    · next hfull =>
      rw [settleKeys_frame]
      obtain ⟨hl, hi, hp, -⟩ := h
      refine ⟨hl, hi, fun x hx => ?_, Bool.not_eq_true _ ▸ hfull⟩
      obtain rfl | hx := Tab.mem_put hx
      · exact readProg_label he
      · exact hp x hx

/-! ## The items of the records -/

theorem storeItem_inRange (i : Item) (r : Received) : (storeItem i r).content.inRange := by
  have hprice : (storePrice r).content.inRange := by
    have hs : r.scale.toNat < 2 ^ 3 := r.scale.isLt
    simp only [storePrice, Content.inRange, clampInt, maxMantissa]
    refine ⟨?_, ?_, by omega⟩
    · split_ifs <;> omega
    · split_ifs <;> omega
  have hsize : (storeSize r).content.inRange := r.value.isLt
  have hseconds : (storeSeconds r).content.inRange := by
    simp only [storeSeconds, Content.inRange, clampInt]
    split
    · omega
    · split <;> omega
  have hcode : (storeCode r).content.inRange := by
    simp only [storeCode, Content.inRange, clampInt]
    split
    · omega
    · split <;> omega
  cases i <;> assumption

theorem storeItems_inRange (received : Tab Received) {items : Tab Stored} (h : itemsInRange items) :
    itemsInRange (storeItems received items) := by
  unfold storeItems
  induction received generalizing items with
  | nil => exact h
  | cons e l ih =>
    refine ih fun x hx => ?_
    unfold storeCoded at hx
    split at hx
    · obtain rfl | hx := Tab.mem_insert hx
      · exact storeItem_inRange _ _
      · exact h x hx
    · exact h x hx

theorem foldl_erase_inRange (l : List Nat) {items : Tab Stored} (h : itemsInRange items) :
    itemsInRange (l.foldl (fun t c => Tab.erase c t) items) := by
  induction l generalizing items with
  | nil => exact h
  | cons c l ih => exact ih fun x hx => h x (Tab.mem_erase hx).1

theorem endImage_inRange (e : IntakeEntry) {a : Applied} (h : itemsInRange a.record.items) :
    itemsInRange (endImage e a).record.items := by
  unfold endImage
  split
  · exact h
  · split
    · exact foldl_erase_inRange _ h
    · exact h

theorem applyEntry_inRange {e : IntakeEntry} {r : Record} {a : Applied} (h : applyEntry e r = some a)
    (hr : itemsInRange r.items) : itemsInRange a.record.items := by
  have hstored : itemsInRange (storeItems e.items r.items) := storeItems_inRange _ hr
  have hend : ∀ b : Applied, b.record.items = storeItems e.items r.items → endImage e b = a →
      itemsInRange a.record.items := by
    rintro b hb rfl
    exact endImage_inRange e (hb ▸ hstored)
  unfold applyEntry at h
  split at h
  · exact hend _ rfl (Option.some.inj h)
  · split at h
    · exact hend _ rfl (Option.some.inj h)
    · split at h
      · cases h
      · exact hend _ rfl (Option.some.inj h)
      · exact hend _ rfl (Option.some.inj h)

/-- The items that a record stores are within the ranges of their kinds (R75). -/
def Record.inRange (r : Record) : Prop := itemsInRange r.items

theorem newItems_inRange : itemsInRange [] := fun _ h => by cases h

theorem Record.inRange_rule : RecordRule Record.inRange where
  fresh _ _ _ := newItems_inRange
  refs _ _ h := h
  marks _ _ h := h
  switch s gone r h := by
    unfold switchRecord
    dsimp only
    split
    · exact h
    · split <;> exact h
  alternate _ h := h
  limit _ h := h
  expire now r h := by
    unfold expireStale
    split <;> exact h
  filter n r h := by
    unfold sourceFilter
    split
    · exact h
    · split <;> exact h
  dropped _ h := h
  applied _ _ _ _ _ := applyEntry_inRange

end Sys2Proof.Machine

/-! PROOFS. What every step keeps of the stores' rooms: the crawl text queue, the field indices, and with
them the whole of `storesSound`. -/

namespace Sys2Proof.Machine

/-! ## The crawl text queue -/

/-- The crawl text queue within its room and the program cursor within the program. -/
def Crw.stored (c : Crw) : Prop := c.queue.length ≤ 1024 ∧ c.cursor < 32

/-- The records follow the layout, their items are in range, and the layout's stores and the crawl's are
within their rooms. -/
def State.filled (s : State) : Prop :=
  s.recordsMatchBut Record.inRange noKey noKey ∧ s.lay.stored ∧ s.crw.stored

theorem findKeyed_lt {s : State} {fuel i j : Nat} {k : Key} (h : findKeyed s fuel i = some (j, k)) :
    j < 32 := by
  induction fuel generalizing i with
  | zero => cases h
  | succ fuel ih =>
    unfold findKeyed at h
    split at h
    · obtain ⟨rfl, -⟩ := Prod.mk.injEq .. ▸ Option.some.inj h
      omega
    · exact ih h

theorem cols_le (st : Straps) : cols st ≤ 160 := by
  unfold cols
  split
  · omega
  · split <;> omega

theorem quote_length_le {s : State} (h : s.filled) (i : Nat) (k : Key) : (s.quote i k).length ≤ 80 := by
  obtain ⟨hrecords, ⟨-, -, hlabels, -⟩, -⟩ := h
  refine length_quoteEntry_le _ _ ?_ fun x hx => (hrecords.1.key hx).2
  by_cases he : s.progEntry i = defaultProg
  · rw [he]
    decide
  · exact hlabels _ (Tab.mem_of_get he)

theorem refillIfLow_stored {s : State} (h : s.filled) : (refillIfLow s).crw.stored := by
  unfold refillIfLow
  split
  · next hlow =>
    unfold refill
    split
    · exact h.2.2
    · next i k hk =>
      have hquote := quote_length_le h i k
      have hcols := cols_le s.straps
      refine ⟨?_, Nat.mod_lt _ (by norm_num)⟩
      simp only [State.modCrw_crw, List.length_append]
      omega
  · exact h.2.2

theorem takeStep_stored {s : State} (h : s.filled) : (takeStep s).crw.stored := by
  unfold takeStep
  split
  · show (newCell s).crw.stored
    unfold newCell
    split
    · exact h.2.2
    · have hrefill := refillIfLow_stored h
      unfold headCell
      split
      · exact hrefill
      · next new t hq =>
        rw [Crw.stored, hq, List.length_cons] at hrefill
        exact ⟨Nat.le_of_succ_le hrefill.1, hrefill.2⟩
    · unfold linkCell
      dsimp only
      split <;> exact h.2.2
  · exact h.2.2

theorem takeCrawlText_stored (b : CrawlTextBody) {s : State} (h : s.crw.stored) :
    (takeCrawlText b s).crw.stored := by
  unfold takeCrawlText
  split
  · exact h
  · exact h
  · split
    · next hroom => exact ⟨by simpa [crawlRoom] using hroom, h.2⟩
    · exact h

theorem flushCrawl_stored {s : State} (h : s.crw.stored) : (flushCrawl s).crw.stored := by
  unfold flushCrawl
  split
  · exact h
  · exact h
  · exact ⟨Nat.zero_le _, h.2⟩

theorem takeHandoff_stored (n : Station) (b : HandoffBody) {s : State} (h : s.crw.stored) :
    (takeHandoff n b s).crw.stored := by
  unfold takeHandoff
  split
  · exact h
  · exact h
  · split
    · unfold holdHandoff
      split <;> exact h
    · exact h

theorem sweepStart_stored (m : MarkClass) {s : State} (h : s.crw.stored) :
    (sweepStart m s).crw.stored := by
  unfold sweepStart beginRefreshPass
  rw [runRefreshPass_frame]
  exact h

/-- A change that leaves the Layout store and the crawl. -/
theorem State.filled.of_frame {s t u : State} (h : s.filled) (hf : t = u) (hlay : u.lay = s.lay)
    (hcrw : u.crw = s.crw)
    (hr : s.recordsMatchBut Record.inRange noKey noKey → t.recordsMatchBut Record.inRange noKey noKey) :
    t.filled :=
  ⟨hr h.1, by rw [hf, hlay]; exact h.2.1, by rw [hf, hcrw]; exact h.2.2⟩

theorem filled_kept : Kept State.filled :=
  have hk := recordsMatch_kept Record.inRange_rule
  { link := fun s f hf h => ⟨hk.link s f hf h.1, h.2⟩
    counts := fun s f h => ⟨hk.counts s f h.1, h.2⟩
    origin := fun s o h => ⟨hk.origin s o h.1, h.2⟩
    port := fun s f hp hb hg h => ⟨hk.port s f hp hb hg h.1, h.2⟩
    tables := fun s f hf hl hp hi h =>
      ⟨hk.tables s f hf hl hp hi h.1, Lay.stored_congr hf hl hp hi h.2.1, h.2.2⟩
    reset := fun s held h => ⟨hk.reset s held h.1, h.2⟩
    released := fun s straps low h =>
      ⟨hk.released s straps low h.1, default_stored, Nat.zero_le _, (by decide : 0 < 32)⟩
    sweep := fun m s h =>
      ⟨hk.sweep m s h.1, read_of_frame State.lay (sweepStart_frame m s) rfl ▸ h.2.1,
        sweepStart_stored m h.2.2⟩
    deadlines := fun s h => h.of_frame (runRefreshPass_frame true s) rfl rfl (hk.deadlines s)
    status := fun s h => h.of_frame (offerStatus_frame s) rfl rfl (hk.status s)
    report := fun n s h => h.of_frame (reportStation_frame n s) rfl rfl (hk.report n s)
    presence := fun n k s h => h.of_frame (takePresence_frame n k s) rfl rfl (hk.presence n k s)
    mark := fun n m s h => h.of_frame (setMark_frame n m s) rfl rfl (hk.mark n m s)
    tick := fun n b s h => h.of_frame (takeTick_frame n b s) rfl rfl (hk.tick n b s)
    apply := fun s h => h.of_frame (takeHead_frame s) rfl rfl (hk.apply s)
    stale := fun s h => ⟨hk.stale s h.1, h.2⟩
    show_ := fun n w p s h => h.of_frame (takeShow_frame n w p s) rfl rfl (hk.show_ n w p s)
    release := fun w s hw h => h.of_frame (takeRelease_frame w s) rfl rfl (hk.release w s hw)
    run := fun n w s hw h => h.of_frame (takeRun_frame n w s) rfl rfl (hk.run n w s hw)
    halt := fun w s hw h => ⟨hk.halt w s hw h.1, h.2⟩
    freeze := fun w s hw h => ⟨hk.freeze w s hw h.1, h.2⟩
    thaw := fun w s hw h => h.of_frame (takeThaw_frame w s) rfl rfl (hk.thaw w s hw)
    override := fun m w s hw h => h.of_frame (takeOverride_frame m w s) rfl rfl (hk.override m w s hw)
    dwell := fun w s hw h => h.of_frame (takeDwellExpiry_frame w s) rfl rfl (hk.dwell w s hw)
    clear := fun s h => ⟨hk.clear s h.1, default_stored, Nat.zero_le _, (by decide : 0 < 32)⟩
    field := fun n r s h => ⟨hk.field n r s h.1, takeField_stored n r s h.2.1,
      read_of_frame State.crw (takeField_frame n r s) rfl ▸ h.2.2⟩
    label := fun n r s h => ⟨hk.label n r s h.1, takeLabel_stored n r s h.2.1,
      read_of_frame State.crw (takeLabel_frame n r s) rfl ▸ h.2.2⟩
    window := fun n r s h => h.of_frame (takeWindow_frame n r s) rfl rfl (hk.window n r s)
    prog := fun n r s h => ⟨hk.prog n r s h.1, takeProg_stored n r s h.2.1,
      read_of_frame State.crw (takeProg_frame n r s) rfl ▸ h.2.2⟩
    limit := fun l s h => ⟨hk.limit l s h.1, h.2⟩
    handoff := fun n b s h => ⟨hk.handoff n b s h.1,
      read_of_frame State.lay (takeHandoff_frame n b s) rfl ▸ h.2.1, takeHandoff_stored n b h.2.2⟩
    crawlText := fun b s h => ⟨hk.crawlText b s h.1,
      read_of_frame State.lay (takeCrawlText_frame b s) rfl ▸ h.2.1, takeCrawlText_stored b h.2.2⟩
    flush := fun s h => ⟨hk.flush s h.1,
      read_of_frame State.lay (flushCrawl_frame s) rfl ▸ h.2.1, flushCrawl_stored h.2.2⟩
    crawl := fun s h => ⟨hk.crawl s h.1,
      read_of_frame State.lay (takeStep_frame s) rfl ▸ h.2.1, takeStep_stored h⟩
    paint := fun s h => h.of_frame (servePaint_frame s) rfl rfl (hk.paint s)
    commit := fun s h => h.of_frame (commitPaint_frame s) rfl rfl (hk.commit s)
    pending := fun s h => ⟨hk.pending s h.1, h.2⟩
    highlights := fun s h => ⟨hk.highlights s h.1, h.2⟩
    grant := fun s h => h.of_frame (grantNext_frame s) rfl rfl (hk.grant s)
    transfer := fun s h => h.of_frame (completeWrite_frame s) rfl rfl (hk.transfer s) }

/-! ## Field indices -/

/-- One of the 512 field indices. -/
def fieldIndex (i : Nat) : Prop := i < 512

/-- Every field index the Painter names is one of the 512. -/
def Pnt.known (p : Pnt) : Prop :=
  (∀ q ∈ p.queue, fieldIndex q.index) ∧ (∀ e ∈ p.states, fieldIndex e.1) ∧
    (∀ h ∈ p.highlights, fieldIndex h.index) ∧ ∀ b, p.burst = some b → fieldIndex b.index

/-- Every field index that a hand-over of compose bursts names is one of the 512. -/
def Cpl.known (c : Cpl) : Prop :=
  (∀ b ∈ c.bursts, b.after.within fieldIndex) ∧
    ∀ g o a, c.granted = some g → g.by_ = .compose o a → a.within fieldIndex

theorem indicesKnown_iff (s : State) :
    s.indicesKnown ↔ (∀ e ∈ s.lay.fields, fieldIndex e.1) ∧ s.pnt.known ∧ s.cpl.known := by
  constructor
  · rintro ⟨hf, hq, hs, hh, hb, hl, hg⟩
    exact ⟨hf, ⟨hq, hs, hh, hb⟩, hl, fun g o a hgr hby l ha => hg g o l hgr (ha ▸ hby)⟩
  · rintro ⟨hf, ⟨hq, hs, hh, hb⟩, hl, hg⟩
    exact ⟨hf, hq, hs, hh, hb, hl, fun g o l hgr hby => hg g o _ hgr hby l rfl⟩

theorem State.indicesKnown.update {s t : State} (h : s.indicesKnown)
    (hlay : t.lay.fields = s.lay.fields) (hpnt : s.pnt.known → t.pnt.known)
    (hcpl : s.cpl.known → t.cpl.known) : t.indicesKnown := by
  rw [indicesKnown_iff] at h ⊢
  obtain ⟨hf, hp, hc⟩ := h
  exact ⟨hlay ▸ hf, hpnt hp, hcpl hc⟩

/-- A change of blocks that name no field index. -/
theorem indicesKnown_of_frame {s t u : State} (hf : t = u) (hlay : u.lay.fields = s.lay.fields)
    (hpnt : u.pnt = s.pnt) (hcpl : u.cpl = s.cpl) (h : s.indicesKnown) : t.indicesKnown := by
  rw [hf]
  exact h.update hlay (fun h => hpnt ▸ h) (fun h => hcpl ▸ h)

theorem Pnt.known_enqueue {p : Pnt} (h : p.known) (kind : PaintKind) {l : List Nat}
    (hl : ∀ i ∈ l, fieldIndex i) : { p with queue := enqueueAll kind l p.queue }.known := by
  refine ⟨fun q hq => ?_, h.2⟩
  obtain ⟨x, hx, e⟩ | hi := (mem_enqueueAll kind l p.queue q.index).mp ⟨q, hq, rfl⟩
  · exact e ▸ h.1 x hx
  · exact hl _ hi

theorem states_known_put {t : Tab PaintState} (h : ∀ e ∈ t, fieldIndex e.1) {i : Nat}
    (hi : fieldIndex i) (v : PaintState) : ∀ e ∈ Tab.put initialPaint i v t, fieldIndex e.1 := by
  intro e he
  obtain rfl | he := Tab.mem_put he
  · exact hi
  · exact h e he

/-- A fold that writes paint states at known field indices. -/
theorem states_known_foldl {g : Tab PaintState → Nat → Tab PaintState}
    {f : Nat → PaintState → PaintState}
    (hg : ∀ t i, g t i = Tab.put initialPaint i (f i (Tab.get initialPaint i t)) t) {l : List Nat}
    (hl : ∀ i ∈ l, fieldIndex i) {t : Tab PaintState} (h : ∀ e ∈ t, fieldIndex e.1) :
    ∀ e ∈ l.foldl g t, fieldIndex e.1 := by
  induction l generalizing t with
  | nil => exact h
  | cons i l ih =>
    refine ih (fun j hj => hl j (List.mem_cons_of_mem _ hj)) ?_
    rw [hg]
    exact states_known_put h (hl i List.mem_cons_self) _

theorem modPaint_known {s : State} (h : s.pnt.known) {i : Nat} (hi : fieldIndex i)
    (f : PaintState → PaintState) : (s.modPaint i f).pnt.known :=
  ⟨h.1, states_known_put h.2.1 hi _, h.2.2⟩

theorem burst_known {p : Pnt} (h : p.known) {g : PaintBurst → Option PaintBurst}
    (hg : ∀ b b', g b = some b' → b'.index = b.index) : ∀ b, p.burst.bind g = some b → fieldIndex b.index := by
  intro b hb
  obtain ⟨x, hx, hxb⟩ := Option.bind_eq_some_iff.mp hb
  rw [hg x b hxb]
  exact h.2.2.2 x hx

theorem unlightPage_known (p : Nat) {s : State} (h : s.pnt.known) : (unlightPage p s).pnt.known := by
  obtain ⟨hq, hs, hh, hb⟩ := h
  refine ⟨hq, states_known_foldl (f := fun _ p => { p with flash := .none }) (fun _ _ => rfl)
    (fun i hi => ?_) hs, fun x hx => hh x (List.mem_filter.mp hx).1, hb⟩
  obtain ⟨x, hx, rfl⟩ := List.mem_map.mp hi
  exact hh x (List.mem_filter.mp hx).1

theorem unbindPaint_known (i : Nat) {p : Pnt} (h : p.known) : (unbindPaint i p).known := by
  refine ⟨h.1, fun e he => h.2.1 e (Tab.mem_erase he).1,
    fun x hx => h.2.2.1 x (List.mem_filter.mp hx).1, burst_known h fun b b' hb => ?_⟩
  unfold unbindBurst at hb
  split at hb
  · split at hb
    · cases hb
    · obtain rfl := Option.some.inj hb
      rfl
  · obtain rfl := Option.some.inj hb
    rfl

theorem withdrawBursts_known (w : Nat) {s : State} (h : s.cpl.known) : (withdrawBursts w s).cpl.known := by
  refine ⟨fun b hb => h.1 b (List.mem_filter.mp hb).1, fun g o a hg hby => ?_⟩
  obtain ⟨x, hx, rfl⟩ := Option.map_eq_some_iff.mp hg
  unfold disown at hby
  split at hby
  · next v a' hx' =>
    split at hby
    · obtain ⟨-, rfl⟩ := Requester.compose.inj hby
      exact After.within_nothing _
    · exact h.2 x o a hx hby
  all_goals exact h.2 x o a hx hby

theorem indicesKnown_binding : Binding fieldIndex State.indicesKnown where
  window _ _ _ h := h.update rfl id id
  counts _ _ h := h.update rfl id id
  enqueue kind l s hl h := h.update rfl (fun hp => Pnt.known_enqueue hp kind fun i hi => by
    obtain hi | ⟨f, hf⟩ := hl i hi
    · exact hi
    · exact h.1 _ hf) id
  list bursts s _ hb h := h.update rfl id fun hc =>
    ⟨fun b hmem => (List.mem_append.mp hmem).elim (hc.1 b) (hb b), hc.2⟩
  unlight p _ h := h.update rfl (unlightPage_known p) id
  burst g _ hg h := h.update rfl (fun hp => ⟨hp.1, hp.2.1, hp.2.2.1, burst_known hp hg⟩) id
  withdraw w _ h := h.update rfl id (withdrawBursts_known w)
  unbindPaint i _ h := h.update rfl (unbindPaint_known i) id
  erase i s h := by
    rw [indicesKnown_iff] at h ⊢
    exact ⟨fun e he => h.1 e (Tab.mem_erase he).1, h.2⟩
  insert i f s hi h := by
    rw [indicesKnown_iff] at h ⊢
    refine ⟨fun e he => ?_, h.2⟩
    obtain rfl | he := Tab.mem_insert he
    · exact hi
    · exact h.1 e he

theorem runInitial_subset {s : State} {run : List (Nat × EntryRead)} {i : Nat}
    (h : i ∈ runInitial s run) : ∃ c ∈ run, c.1 = i := by
  obtain ⟨c, hc, rfl⟩ := List.mem_map.mp h
  exact ⟨c, (List.mem_filter.mp hc).1, rfl⟩

theorem takeField_known (n : Station) (r : FieldRecord) (s : State) (h : s.indicesKnown) :
    (takeField n r s).indicesKnown := by
  have hrefuse (reason : Reason) : (refuseRecord 1 reason n s).indicesKnown := h.update rfl id id
  unfold takeField
  split
  · exact hrefuse _
  · next l _ =>
    dsimp only
    split
    · exact hrefuse _
    · next hroom =>
      split
      · exact hrefuse _
      · split
        · exact hrefuse _
        · have hknown : ∀ c ∈ fieldRun (fieldStart s.lay r) l, fieldIndex c.1 := fun c hc =>
            (mem_fieldRun hc).2.trans_le (not_lt.mp hroom)
          have hrun := indicesKnown_binding.foldl_changeIndex hknown h
          refine indicesKnown_binding.settleComposes (indicesKnown_binding.handOver
            (fun b hb => ?_) (fun l' hl' i hi => ?_) ?_)
          · rw [runBursts_after hb]
            exact After.within_nothing _
          · obtain rfl := After.initial.inj hl'
            obtain ⟨c, hc, rfl⟩ := runInitial_subset hi
            exact hknown c hc
          · rw [settleKeys_frame]
            exact hrun

theorem takeLabel_known (n : Station) (r : LabelRecord) (s : State) (h : s.indicesKnown) :
    (takeLabel n r s).indicesKnown := by
  unfold takeLabel
  split
  · exact h.update rfl id id
  · split
    · exact h.update rfl id id
    · exact indicesKnown_binding.commitLabel _ _ (h.update rfl id id)

theorem takeHead_known (s : State) (h : s.indicesKnown) : (takeHead s).indicesKnown := by
  have hframe := takeHead_frame s
  refine h.update (read_of_frame (fun s => s.lay.fields) hframe rfl) (fun hp => ?_)
    (keep_of_frame State.cpl hframe rfl)
  unfold takeHead
  split
  · exact hp
  · split
    · unfold takeEntry
      split
      · exact hp
      · split
        · split
          · exact hp
          · rw [commitApply_pnt]
            refine Pnt.known_enqueue hp _ fun i hi => ?_
            obtain ⟨e, he, rfl⟩ := List.mem_map.mp hi
            exact h.1 e (List.mem_filter.mp he).1
        · exact hp
    · exact hp

theorem paintSite_known {s : State} (h : s.indicesKnown) {i : Nat} {x : Field × Nat × Window}
    (hx : paintSite s i = some x) : fieldIndex i := by
  unfold paintSite at hx
  split at hx
  · cases hx
  · next f hf => exact h.1 _ (Tab.mem_of_look hf)

theorem servePaint_known (s : State) (h : s.indicesKnown) : (servePaint s).indicesKnown := by
  unfold servePaint
  split
  · next q t _ hqueue =>
    have hq : (s.modPnt fun p => { p with queue := t }).indicesKnown :=
      h.update rfl (fun hp => ⟨fun x hx => hp.1 x (hqueue ▸ List.mem_cons_of_mem _ hx), hp.2⟩) id
    unfold serveReq
    split
    · exact indicesKnown_binding.skipReq _ hq
    · next f w v hsite =>
      have hi := paintSite_known hq hsite
      split
      · exact indicesKnown_binding.skipReq _ (indicesKnown_binding.window _ _ _ hq)
      · unfold paintReq
        split
        · exact hq.update rfl (modPaint_known · hi _) id
        · refine hq.update rfl (fun hp => ⟨hp.1, hp.2.1, hp.2.2.1, fun b hb => ?_⟩) id
          obtain rfl := Option.some.inj hb
          exact hi
  · exact h
  · exact h

theorem makeRoom_known (l : Lay) (i : Nat) {p : Pnt} (h : p.known) : (makeRoom l i p).known := by
  obtain ⟨hq, hs, hh, hb⟩ := h
  unfold makeRoom
  split
  · exact ⟨hq, hs, fun x hx => hh x (List.mem_filter.mp hx).1, hb⟩
  · split
    · exact ⟨hq, hs, hh, hb⟩
    · unfold expireHead
      split
      · exact ⟨hq, hs, hh, hb⟩
      · next x t hx =>
        rw [hx] at hh
        exact ⟨hq, states_known_put hs (hh x List.mem_cons_self) _,
          fun y hy => hh y (List.mem_cons_of_mem _ hy), hb⟩

theorem mem_placeHighlight {now : Sweep} {x h : Highlight} {hs : List Highlight}
    (hx : x ∈ placeHighlight now h hs) : x = h ∨ x ∈ hs := by
  induction hs with
  | nil => exact .inl (List.mem_singleton.mp hx)
  | cons g t ih =>
    unfold placeHighlight at hx
    split at hx
    · exact List.mem_cons.mp hx
    · obtain rfl | hx := List.mem_cons.mp hx
      · exact .inr List.mem_cons_self
      · exact (ih hx).imp_right (List.mem_cons_of_mem _)

theorem setFlash_known {s : State} (h : s.pnt.known) {i : Nat} (hi : fieldIndex i) (f : Flash)
    (hold : Nat) : (setFlash i f hold s).pnt.known := by
  refine modPaint_known ?_ hi _
  obtain ⟨hq, hs, hh, hb⟩ := makeRoom_known s.lay i h
  refine ⟨hq, hs, fun x hx => ?_, hb⟩
  obtain rfl | hx := mem_placeHighlight hx
  · exact hi
  · exact hh x hx

theorem commitBurst_known {s : State} (b : PaintBurst) (hb : fieldIndex b.index)
    (h : s.indicesKnown) : (commitBurst b s).indicesKnown := by
  have hdone {u : State} (hu : u.indicesKnown) :
      (if b.kind = .initial then initialDone b.index u else u).indicesKnown := by
    split
    · exact indicesKnown_binding.initialDone _ hu
    · exact hu
  have hcommit : (s.modPaint b.index (committed s.now b)).indicesKnown :=
    h.update rfl (modPaint_known · hb _) id
  have hlist : (if b.kind.startsAfresh then
      (s.modPaint b.index (committed s.now b)).modPnt
        fun p => { p with highlights := unlist b.index p.highlights }
      else s.modPaint b.index (committed s.now b)).indicesKnown := by
    split
    · exact hcommit.update rfl
        (fun hp => ⟨hp.1, hp.2.1, fun x hx => hp.2.2.1 x (List.mem_filter.mp hx).1, hp.2.2.2⟩) id
    · exact hcommit
  unfold commitBurst
  dsimp only
  refine hdone ?_
  split
  · exact hlist
  · exact hlist.update rfl (setFlash_known · hb _ _) id

theorem commitPaint_known (s : State) (h : s.indicesKnown) : (commitPaint s).indicesKnown := by
  unfold commitPaint
  split
  · exact h
  · next b hb =>
    have hi : fieldIndex b.index := h.2.2.2.2.1 b hb
    have hnone : (s.modPnt fun p => { p with burst := none }).indicesKnown :=
      h.update rfl (fun hp => ⟨hp.1, hp.2.1, hp.2.2.1, by simp⟩) id
    split
    · dsimp only
      split
      · exact hnone
      · exact commitBurst_known b hi hnone
    · exact h

theorem releasePending_known (s : State) (h : s.indicesKnown) : (releasePending s).indicesKnown := by
  have hdue : ∀ i ∈ duePaints s, fieldIndex i := fun i hi => by
    obtain ⟨e, he, rfl⟩ := List.mem_map.mp hi
    exact h.2.2.1 e (List.mem_filter.mp he).1
  refine h.update rfl (fun hp => ?_) id
  have hstates := states_known_foldl (f := fun _ p => { p with pending := none })
    (fun _ _ => rfl) hdue hp.2.1 (g := clearPending)
  exact Pnt.known_enqueue (p := { s.pnt with states := (duePaints s).foldl clearPending s.pnt.states })
    ⟨hp.1, hstates, hp.2.2⟩ .ordinary hdue

theorem expireHighlights_known (s : State) (h : s.indicesKnown) :
    (expireHighlights s).indicesKnown := by
  refine h.update rfl (fun hp => ⟨hp.1, ?_, fun x hx => hp.2.2.1 x (List.mem_filter.mp hx).1,
    hp.2.2.2⟩) id
  refine states_known_foldl (f := fun i p => expiredFlash (modeOf s.lay i) p) (fun _ _ => rfl)
    (fun i hi => ?_) hp.2.1
  obtain ⟨x, hx, rfl⟩ := List.mem_map.mp hi
  exact hp.2.2.1 x (List.mem_filter.mp hx).1

theorem grantNext_known (s : State) (h : s.indicesKnown) : (grantNext s).indicesKnown := by
  have hplain {c : Cpl} (hb : c.bursts = s.cpl.bursts)
      (hg : ∀ g o a, c.granted = some g → g.by_ = .compose o a → a.within fieldIndex) :
      s.cpl.known → c.known := fun hc => ⟨hb ▸ hc.1, hg⟩
  have hpainter (b : PaintBurst) (hb : waitingBurst s.pnt = some b) :
      (grantPainter b s).indicesKnown := by
    have hi : fieldIndex b.index := h.2.2.2.2.1 b (Option.filter_eq_some_iff.mp hb).1
    refine h.update rfl (fun hp => ⟨hp.1, hp.2.1, hp.2.2.1, fun x hx => ?_⟩)
      (hplain rfl fun g o a hg hby => ?_)
    · obtain rfl := Option.some.inj hx
      exact hi
    · obtain rfl := Option.some.inj hg
      cases hby
  have hcompose (b : Burst) (t : List Burst) (hb : s.cpl.bursts = b :: t) :
      (grantCompose b t s).indicesKnown := by
    refine h.update rfl id fun hc =>
      ⟨fun x hx => hc.1 x (hb ▸ List.mem_cons_of_mem _ hx), fun g o a hg hby => ?_⟩
    obtain rfl := Option.some.inj hg
    obtain ⟨-, rfl⟩ := Requester.compose.inj hby
    exact hc.1 b (hb ▸ List.mem_cons_self)
  have hgranted := ((indicesKnown_iff s).mp h).2.2.2
  unfold grantNext
  split
  · exact h
  · exact h.update rfl id (hplain rfl hgranted)
  · split
    · unfold grantCrawl
      split
      · exact h.update rfl id (hplain rfl hgranted)
      · refine h.update rfl id (hplain rfl fun g o a hg hby => ?_)
        obtain rfl := Option.some.inj hg
        cases hby
    · unfold grantByTurn
      split
      · exact hpainter _ ‹_›
      · exact hcompose _ _ ‹_›
      · split
        · exact hpainter _ ‹_›
        · exact hcompose _ _ ‹_›
      · split
        · unfold grantStatus
          split
          · exact h.update rfl id (hplain rfl hgranted)
          · refine h.update rfl id (hplain rfl fun g o a hg hby => ?_)
            obtain rfl := Option.some.inj hg
            cases hby
        · exact h

theorem completeWrite_known (s : State) (h : s.indicesKnown) : (completeWrite s).indicesKnown := by
  unfold completeWrite
  split
  · exact h
  · next g hg =>
    have hwrite : (s.modCpl fun c =>
        { c with plane := writeCells g.row g.column g.cells c.plane, granted := none }).indicesKnown :=
      h.update rfl id fun hc => ⟨hc.1, fun _ _ _ h => by cases h⟩
    unfold tellWritten
    split
    · exact hwrite
    · exact hwrite
    · refine hwrite.update rfl (fun hp => ⟨hp.1, hp.2.1, hp.2.2.1, fun b hb => ?_⟩) id
      obtain ⟨x, hx, rfl⟩ := Option.map_eq_some_iff.mp hb
      exact hp.2.2.2 x hx
    · next o a hby =>
      exact indicesKnown_binding.runAfter (((indicesKnown_iff s).mp h).2.2.2 g o a hg hby) hwrite

theorem takeStep_known (s : State) (h : s.indicesKnown) : (takeStep s).indicesKnown := by
  have hframe := takeStep_frame s
  refine h.update (read_of_frame (fun s => s.lay.fields) hframe rfl)
    (keep_of_frame State.pnt hframe rfl) fun hc => ?_
  unfold takeStep
  split
  · unfold afterStep
    rw [newCell_frame]
    exact hc
  · exact hc

theorem nothing_known {s : State} (hfields : s.lay.fields = []) (hpnt : s.pnt = resetPnt)
    (hbursts : s.cpl.bursts = []) (hgranted : s.cpl.granted = none) : s.indicesKnown := by
  rw [indicesKnown_iff, hfields, hpnt]
  exact ⟨by simp, ⟨by simp [resetPnt], by simp [resetPnt], by simp [resetPnt], by simp [resetPnt]⟩,
    by simp [hbursts], by simp [hgranted]⟩

theorem indicesKnown_kept : Kept State.indicesKnown where
  link _ _ _ h := h.update rfl id id
  counts _ _ h := h.update rfl id id
  origin _ _ h := h.update rfl id id
  port s f _ hb hg h := h.update rfl id fun hc => by
    rw [State.modCpl_cpl, Cpl.known, hb, hg]
    exact hc
  tables _ _ hf _ _ _ h := h.update hf id id
  reset _ _ h := h.update rfl id id
  released _ _ _ _ := nothing_known rfl rfl rfl rfl
  sweep m s := indicesKnown_of_frame (sweepStart_frame m s) rfl rfl rfl
  deadlines s := indicesKnown_of_frame (runRefreshPass_frame true s) rfl rfl rfl
  status s := indicesKnown_of_frame (offerStatus_frame s) rfl rfl rfl
  report n s := indicesKnown_of_frame (reportStation_frame n s) rfl rfl rfl
  presence n k s := indicesKnown_of_frame (takePresence_frame n k s) rfl rfl rfl
  mark n m s := indicesKnown_of_frame (setMark_frame n m s) rfl rfl rfl
  tick n b s := indicesKnown_of_frame (takeTick_frame n b s) rfl rfl rfl
  apply := takeHead_known
  stale _ h := h.update rfl id id
  show_ := indicesKnown_binding.takeShow
  release := indicesKnown_binding.takeRelease
  run := indicesKnown_binding.takeRun
  halt _ _ _ h := h.update rfl id id
  freeze _ _ _ h := h.update rfl id id
  thaw := indicesKnown_binding.takeThaw
  override := indicesKnown_binding.takeOverride
  dwell := indicesKnown_binding.takeDwellExpiry
  clear _ _ := nothing_known rfl rfl rfl rfl
  field := takeField_known
  label := takeLabel_known
  window := indicesKnown_binding.takeWindow
  prog n r s h := by
    rw [takeProg_frame]
    exact h.update rfl id id
  limit _ _ h := h.update rfl id id
  handoff n b s := indicesKnown_of_frame (takeHandoff_frame n b s) rfl rfl rfl
  crawlText b s := indicesKnown_of_frame (takeCrawlText_frame b s) rfl rfl rfl
  flush s := indicesKnown_of_frame (flushCrawl_frame s) rfl rfl rfl
  crawl := takeStep_known
  paint := servePaint_known
  commit := commitPaint_known
  pending := releasePending_known
  highlights := expireHighlights_known
  grant := grantNext_known
  transfer := completeWrite_known

/-! ## All the stores -/

/-- A queue that holds no field twice holds at most the 512 fields (R116). -/
theorem length_le_of_known {q : List PaintReq} (hn : (q.map PaintReq.index).Nodup)
    (hk : ∀ x ∈ q, x.index < 512) : q.length ≤ 512 := by
  have hsub : (q.map PaintReq.index).Subperm (List.range 512) := by
    refine hn.subperm fun i hi => ?_
    obtain ⟨x, hx, rfl⟩ := List.mem_map.mp hi
    exact List.mem_range.mpr (hk x hx)
  simpa using hsub.length_le

theorem filled_of_sound {s : State} (hmatch : s.recordsMatch) (h : s.storesSound) : s.filled := by
  obtain ⟨-, hcrawl, hrecords, hchars, hpointer, hcursor, -, hlabels, hitems⟩ := h
  have hm : s.recordsMatchBut Record.inRange noKey noKey := (recordsSound_iff s).mp ⟨hmatch, hitems⟩
  refine ⟨hm, ⟨hchars, hpointer, hlabels, ?_⟩, hcrawl, hcursor⟩
  rw [overFull, decide_eq_false_iff_not, ← hm.length, recordRoom]
  omega

theorem sound_of_filled {s : State} (hq : s.queueOnce) (hk : s.indicesKnown) (h : s.filled) :
    s.storesSound := by
  obtain ⟨hm, ⟨hchars, hpointer, hlabels, hfull⟩, hcrawl, hcursor⟩ := h
  rw [overFull, decide_eq_false_iff_not, ← hm.length, recordRoom] at hfull
  exact ⟨length_le_of_known hq hk.2.1, hcrawl, not_lt.mp hfull, hchars, hpointer, hcursor, hk, hlabels,
    ((recordsSound_iff s).mpr hm).2⟩

/-- Settles O56: the buffers are kept sound by each block's effect. Of the stores, the directory is as
large as the set of keys that the layout names, the paint queue at most as large as the set of fields,
and a quote entry enters a crawl text queue shorter than a row alone. -/
theorem buffersStaySound : Obligations.BuffersStaySound := by
  refine ⟨fun _ _ hs he => buffersSound_step hs he, fun s t hb hm hs he => ?_⟩
  refine sound_of_filled (buffersSound_step hb he).2.1
    (indicesKnown_kept.step (fun _ _ h => h.update rfl id id) hs.2.2.2.2.2.2.1 he)
    (filled_kept.step (fun _ _ h => ?_) (filled_of_sound hm hs) he)
  exact ⟨State.recordsMatchBut_congr rfl rfl rfl rfl h.1, h.2⟩

end Sys2Proof.Machine

/-! PROOFS. Sweep starts (spec/01_desk_link.md section 1.3): what one does to the crawl unit, the status
unit, the dwells and the refresh requests. -/

namespace Sys2Proof.Machine

/-! ## The refresh pass of a sweep start -/

/-- A request put into the pass. -/
def RefreshEntry.begun (e : RefreshEntry) : RefreshEntry := { e with inPass := true }

/-- A request that stays as it is in the pass. -/
def RefreshEntry.passed (e : RefreshEntry) : RefreshEntry := { e with inPass := false }

/-- A request sent at a sweep number. -/
def RefreshEntry.sentAt (now : Sweep) (e : RefreshEntry) : RefreshEntry :=
  { e with state := if e.state = .waiting then .sent (now + 256) else e.state, inPass := false }

/-- The waiting requests of a list, in its order. -/
def waitingOf (l : List RefreshEntry) : List RefreshEntry := l.filter fun e => e.state = .waiting

/-- What an entry of the pass becomes while no deadline of it is reached. -/
theorem handleRefresh_of_not_reached {e : RefreshEntry} {s : State}
    (h : deadlineReached s.now e = false) :
    handleRefresh e s =
      if e.state = .waiting ∧ s.txFree = true then
        (some (e.sentAt s.now), s.txAdd (refreshParcel s.own e.target e.key))
      else (some e.passed, s) := by
  unfold handleRefresh
  dsimp only
  split
  · next hw =>
    rw [RefreshEntry.sentAt, if_pos hw]
    simp only [RefreshEntry.passed, hw, true_and]
  · next due hs =>
    rw [deadlineReached, hs] at h
    have h : reached s.now due = false := h
    simp only [RefreshEntry.passed, h, hs, reduceCtorEq, false_and, if_false, Bool.false_eq_true]

/-- A change of the transmit queue alone. -/
def State.withTxq (s : State) (q : List Parcel) : State := s.modLnk fun l => { l with txq := q }

theorem waitingOf_cons_of_waiting {e : RefreshEntry} {l : List RefreshEntry} (h : e.state = .waiting) :
    waitingOf (e :: l) = e :: waitingOf l := by simp [waitingOf, h]

theorem waitingOf_cons_of_sent {e : RefreshEntry} {l : List RefreshEntry} (h : e.state ≠ .waiting) :
    waitingOf (e :: l) = waitingOf l := by simp [waitingOf, h]

theorem refreshPass_begun_cons {e : RefreshEntry} {s : State} (l : List RefreshEntry)
    (h : deadlineReached s.now e = false) :
    refreshPass false (e.begun :: l) s =
      ((handleRefresh e.begun s).1.toList ++ (refreshPass false l (handleRefresh e.begun s).2).1,
        (refreshPass false l (handleRefresh e.begun s).2).2) := by
  have hd : deadlineReached s.now e.begun = false := h
  rw [refreshPass, hd]
  rfl

/-- The pass of a sweep start at which no deadline is reached: the waiting requests are offered in their
order while the transmit queue has room (R70). -/
theorem refreshPass_begun {l : List RefreshEntry} {s : State}
    (h : ∀ e ∈ l, deadlineReached s.now e = false) :
    (refreshPass false (l.map RefreshEntry.begun) s).2 =
        s.withTxq (s.lnk.txq ++ ((waitingOf l).take (8 - s.lnk.txq.length)).map
          fun e => refreshParcel s.own e.target e.key) ∧
      (refreshPass false (l.map RefreshEntry.begun) s).1.map RefreshEntry.key =
        l.map RefreshEntry.key ∧
      (s.lnk.txq.length + (waitingOf l).length ≤ 8 →
        (refreshPass false (l.map RefreshEntry.begun) s).1 = l.map (RefreshEntry.sentAt s.now)) ∧
      (8 ≤ s.lnk.txq.length →
        (refreshPass false (l.map RefreshEntry.begun) s).1 = l.map RefreshEntry.passed) := by
  induction l generalizing s with
  | nil =>
    refine ⟨?_, rfl, fun _ => rfl, fun _ => rfl⟩
    simp [refreshPass, waitingOf, State.withTxq, State.modLnk]
  | cons e l ih =>
    have he := h e List.mem_cons_self
    have hl : ∀ x ∈ l, deadlineReached s.now x = false := fun x hx => h x (List.mem_cons_of_mem _ hx)
    rw [List.map_cons, refreshPass_begun_cons _ he,
      handleRefresh_of_not_reached (e := e.begun) (s := s) he]
    by_cases hw : e.state = .waiting
    · rw [waitingOf_cons_of_waiting hw]
      by_cases hfree : s.txFree = true
      · have hroom : s.lnk.txq.length < 8 := of_decide_eq_true hfree
        rw [if_pos ⟨hw, hfree⟩]
        obtain ⟨hstate, hkeys, hall, hfull⟩ :=
          ih (s := s.txAdd (refreshParcel s.own e.begun.target e.begun.key)) hl
        have hlen : (s.txAdd (refreshParcel s.own e.begun.target e.begun.key)).lnk.txq.length =
            s.lnk.txq.length + 1 := by simp [State.txAdd]
        refine ⟨?_, ?_, fun hle => ?_, fun hge => ?_⟩
        · rw [hstate, hlen, (by omega : 8 - s.lnk.txq.length = 8 - (s.lnk.txq.length + 1) + 1),
            List.take_succ_cons, List.map_cons]
          simp only [State.withTxq, State.txAdd, State.modLnk, List.append_assoc, List.cons_append,
            List.nil_append]
          rfl
        · simp only [Option.toList_some, List.map_append, List.map_cons, List.map_nil, hkeys]
          rfl
        · simp only [Option.toList_some]
          rw [hall (by rw [hlen]; simp only [List.length_cons] at hle; omega)]
          rfl
        · omega
      · have hroom : 8 ≤ s.lnk.txq.length := not_lt.mp fun hlt => hfree (decide_eq_true hlt)
        rw [if_neg (fun hc => hfree hc.2)]
        obtain ⟨hstate, hkeys, -, hfull⟩ := ih (s := s) hl
        refine ⟨?_, ?_, fun hle => ?_, fun hge => ?_⟩
        · rw [hstate, Nat.sub_eq_zero_of_le hroom, List.take_zero, List.take_zero]
        · simp only [Option.toList_some, List.map_append, List.map_cons, List.map_nil, hkeys]
          rfl
        · simp only [List.length_cons] at hle
          omega
        · simp only [Option.toList_some]
          rw [hfull hroom]
          rfl
    · rw [waitingOf_cons_of_sent hw, if_neg (fun hc => hw hc.1)]
      obtain ⟨hstate, hkeys, hall, hfull⟩ := ih (s := s) hl
      have hsame : e.passed = e.sentAt s.now := by rw [RefreshEntry.sentAt, if_neg hw]; rfl
      refine ⟨hstate, ?_, fun hle => ?_, fun hge => ?_⟩
      · simp only [Option.toList_some, List.map_append, List.map_cons, List.map_nil, hkeys]
        rfl
      · simp only [Option.toList_some]
        rw [hall hle]
        exact congrArg (· :: l.map (RefreshEntry.sentAt s.now)) hsame
      · simp only [Option.toList_some]
        rw [hfull hge]
        rfl

/-- Without the deadlines the pass changes the transmit queue alone, beside the list. -/
theorem refreshPass_false_frame (l : List RefreshEntry) (s : State) :
    (refreshPass false l s).2 = s.withTxq (refreshPass false l s).2.lnk.txq := by
  induction l generalizing s with
  | nil => rfl
  | cons e l ih =>
    unfold refreshPass
    split
    · exact ih s
    · split
      · rfl
      · next hd =>
        have hd : deadlineReached s.now e = false := by simpa using hd
        dsimp only
        rw [ih, handleRefresh_of_not_reached hd]
        split <;> rfl

/-! ## The sweep start -/

/-- The state in which a sweep start begins its pass over the refresh requests. -/
def sweepBegun (m : MarkClass) (s : State) : State :=
  countDwells (lapSweep (crawlSweep (s.modLnk (countSweep m))))

theorem sweepStart_eq (m : MarkClass) (s : State) :
    sweepStart m s =
      (refreshPass false (s.dir.refresh.map RefreshEntry.begun)
        ((sweepBegun m s).modDir fun d =>
          { d with refresh := d.refresh.map RefreshEntry.begun })).2.modDir fun d =>
        { d with refresh := (refreshPass false (s.dir.refresh.map RefreshEntry.begun)
          ((sweepBegun m s).modDir fun d =>
            { d with refresh := d.refresh.map RefreshEntry.begun })).1 } := rfl

theorem sweepStart_lnk (m : MarkClass) (s : State) :
    (sweepStart m s).lnk = { countSweep m s.lnk with txq := (sweepStart m s).lnk.txq } := by
  rw [sweepStart_eq, State.modDir_lnk, refreshPass_false_frame]
  rfl

theorem sweepStart_crw (m : MarkClass) (s : State) :
    (sweepStart m s).crw = (crawlSweep (s.modLnk (countSweep m))).crw := by
  rw [sweepStart_eq, State.modDir_crw, refreshPass_false_frame]
  rfl

theorem sweepStart_sts (m : MarkClass) (s : State) :
    (sweepStart m s).sts = { s.sts with lapDue := decide ((sweepStart m s).lnk.lap = 0) } := by
  rw [sweepStart_lnk, sweepStart_eq, State.modDir_sts, refreshPass_false_frame]
  rfl

theorem window_sweepStart (m : MarkClass) {s : State} (h : s.windowsAgree) (w : Nat) :
    (sweepStart m s).window w = countDwell (s.window w) := by
  rw [State.window, sweepStart_win]
  exact State.window_countDwells h.rising w

theorem countDwell_eq (v : Window) :
    countDwell v =
      if v.carousel = .running ∧ 0 < v.dwell ∧ v.state ≠ .composing ∧ v.advanceDue = false then
        if v.dwell = 1 then { v with dwellDue := true }
        else { v with dwell := v.dwell - 1, dwellDue := false }
      else { v with dwellDue := false } := by
  have : dwellCounts v = decide
      (v.carousel = .running ∧ 0 < v.dwell ∧ v.state ≠ .composing ∧ v.advanceDue = false) := by
    simp [dwellCounts, Bool.decide_and, Bool.and_assoc]
  unfold countDwell
  simp only [this, decide_eq_true_eq]

theorem not_deadlineReached {now : Sweep} {e : RefreshEntry}
    (h : ∀ due, e.state = .sent due → 2 ^ 31 ≤ (now - due).toNat) : deadlineReached now e = false := by
  unfold deadlineReached
  split
  · rfl
  · next due hs =>
    rw [reached, decide_eq_false_iff_not, not_lt]
    exact h due hs

/-- A sweep start after a change of LNK that leaves the transmit queue. -/
theorem sweepStart_started (m : MarkClass) (s : State) {f : Lnk → Lnk}
    (hf : (f s.lnk).txq = s.lnk.txq) : s.sweepStarted (sweepStart m (s.modLnk f)) := by
  have hlnk := sweepStart_lnk m (s.modLnk f)
  refine ⟨?_, sweepStart_sts m (s.modLnk f), fun h w => ?_, fun hdue => ?_⟩
  · rw [sweepStart_crw, hlnk]
    rfl
  · rw [window_sweepStart m (s := s.modLnk f) h, countDwell_eq]
    rfl
  · obtain ⟨hstate, hkeys, hall, hfull⟩ := refreshPass_begun (l := s.dir.refresh)
      (s := (sweepBegun m (s.modLnk f)).modDir fun d =>
        { d with refresh := d.refresh.map RefreshEntry.begun }) fun e he =>
      not_deadlineReached fun due hs => by
        have := hdue e he due hs
        rw [hlnk] at this
        exact this
    have htxq : ((sweepBegun m (s.modLnk f)).modDir fun d =>
        { d with refresh := d.refresh.map RefreshEntry.begun }).lnk.txq = s.lnk.txq := hf
    have hnow : ((sweepBegun m (s.modLnk f)).modDir fun d =>
        { d with refresh := d.refresh.map RefreshEntry.begun }).now =
        (sweepStart m (s.modLnk f)).lnk.sweep := by rw [hlnk]; rfl
    rw [htxq] at hstate hall hfull
    rw [hnow] at hall
    refine ⟨?_, hkeys, hall, hfull⟩
    rw [sweepStart_eq, State.modDir_lnk]
    exact congrArg (fun u : State => u.lnk.txq) hstate

end Sys2Proof.Machine

/-! PROOFS. The commands of LNK (spec/01_desk_link.md). -/

namespace Sys2Proof.Machine

/-- A command that runs under the guard, with RESETn high. -/
theorem exec_of_running {i : Instr} {f : State → State} {s : State}
    (h : ∀ u, exec i u = running f u) (hs : s.resetHeld = false) : exec i s = .next (f s) :=
  (h s).trans (running_of_high hs)

theorem NatSet.mem_remove {n m : Nat} {s : NatSet} : m ∈ NatSet.remove n s ↔ m ∈ s ∧ m ≠ n := by
  simp [NatSet.remove]

theorem mute_iff {st : Straps} : mute st = true ↔ st.sn = 0 := decide_eq_true_iff

theorem mute_of_ne {st : Straps} (h : st.sn ≠ 0) : mute st = false := decide_eq_false h

/-! ## The clock -/

/-- While no mark is in progress the clock leaves what is driven on DLS. -/
theorem advanceTo_dls_of_unmarked {l : Lnk} (h : l.markInProgress = false) (t : Nat) :
    (advanceTo t l).dls = l.dls := by
  unfold advanceTo
  split
  · rfl
  · simp [driveAt, h]

theorem advanceTo_dls_of_none {l : Lnk} (h : l.dls = none) (t : Nat) : (advanceTo t l).dls = none := by
  unfold advanceTo
  split
  · exact h
  · simp [driveAt, h]

theorem advanceTo_dld_of_none {l : Lnk} (h : l.dld = none) (t : Nat) : (advanceTo t l).dld = none := by
  unfold advanceTo
  split
  · exact h
  · simp [h]

/-- The clock as an edge of an unmarked line moves it, but for the free time. -/
theorem advanceTo_unmarked {l : Lnk} (h : l.markInProgress = false) (t : Nat) :
    advanceTo t l =
      { l with
        timer := max t l.timer, freeTime := (advanceTo t l).freeTime, dld := (advanceTo t l).dld
        sentSlot := (advanceTo t l).sentSlot } := by
  conv_lhs => rw [advanceTo_frame]
  rw [advanceTo_timer, advanceTo_dls_of_unmarked h]

theorem slotCount_of_restarted {l : Lnk} (hr : l.slotRunning = true) (ht : l.timer = 0) :
    l.slotCount = some 0 := by
  rw [Lnk.slotCount, if_pos hr, ht, Nat.zero_div]

/-! ## Marks and stuck lines -/

/-- Settles O5: the falling edge of a recognised mark is one change of LNK. -/
theorem markRestartsTimer : Obligations.MarkRestartsTimer := by
  intro edge s hhigh hmark hsync
  have hrec : recognises (advanceTo edge s.lnk) = true := by
    simpa [recognises, hmark] using hsync
  have hrun : exec (.sweepMarkRecognised edge) s =
      .next (s.modLnk fun _ => beginMark (advanceTo edge s.lnk)) := by
    rw [exec_of_running (i := .sweepMarkRecognised edge) (fun _ => rfl) hhigh]
    simp only [State.modLnk, recogniseMark, hrec, if_true]
  refine ⟨_, hrun, rfl, rfl, slotCount_of_restarted rfl rfl, rfl, rfl, rfl, rfl, advanceTo_txq _ _, advanceTo_sync _ _,
    advanceTo_sweep _ _, advanceTo_lap _ _, advanceTo_lapListen _ _, fun n => ?_⟩
  show n ∈ NatSet.remove ((advanceTo edge s.lnk).timer / slotBits) (advanceTo edge s.lnk).heard ↔ _
  rw [NatSet.mem_remove, advanceTo_heard, advanceTo_timer]
  rfl

theorem classOf_of_range {low : Nat} (h1 : 8 ≤ low) (h2 : low ≤ 320) :
    classOf low = some (if low ≤ 32 then .short else .long) := by
  rw [classOf, if_neg (not_lt.mpr h1), if_pos h2]
  split <;> rfl

/-- A dwell after a sweep start, and the page. -/
theorem countDwell_dwell (v : Window) :
    (countDwell v).page = v.page ∧
      (countDwell v).dwell =
        if dwellCounts v = true ∧ v.dwell ≠ 1 then v.dwell - 1 else v.dwell := by
  unfold countDwell
  split
  · next h => split <;> simp_all
  · next h => simp [h]

/-- Settles O6: a class by the low time, and then a sweep start of that class. -/
theorem classifiedMarkStartsSweep : Obligations.ClassifiedMarkStartsSweep := by
  intro low s hhigh hmark h1 h2
  have hrun : exec (.markClassified low) s =
      .next (sweepStart (if low ≤ 32 then .short else .long) (s.modLnk (endMark low))) := by
    rw [exec_of_running (i := .markClassified low) (fun _ => rfl) hhigh]
    simp only [classifyMark, classOf_of_range h1 h2, hmark, if_true]
  have hlnk := sweepStart_lnk (if low ≤ 32 then .short else .long) (s.modLnk (endMark low))
  have hframe := sweepStart_frame (if low ≤ 32 then .short else .long) (s.modLnk (endMark low))
  refine ⟨_, hrun, by rw [hlnk]; rfl, by rw [hlnk]; rfl, ?_, ?_, ?_, ?_,
    sweepStart_started _ s (advanceTo_txq low s.lnk), fun hw w => ?_,
    read_of_frame State.straps hframe rfl, read_of_frame State.ptb hframe rfl,
    read_of_frame State.inq hframe rfl, sweepStart_records _ _, read_of_frame State.lay hframe rfl,
    read_of_frame State.pnt hframe rfl, read_of_frame State.cpl hframe rfl⟩
  · rw [hlnk]
    exact congrArg (· + 1) (advanceTo_sweep low s.lnk)
  · rw [hlnk]
    show nextLap _ (advanceTo low s.lnk).lap = _
    rw [advanceTo_lap]
    split <;> rfl
  · rw [hlnk]
    show ((advanceTo low s.lnk).longSeen || decide _) = _
    rw [advanceTo_longSeen]
    congr 1
    split
    · next h => simp [h]
    · next h => simpa using h
  · rw [hlnk]
    exact advanceTo_lapListen low s.lnk
  · rw [window_sweepStart _ (s := s.modLnk (endMark low)) hw]
    exact countDwell_dwell _

theorem raiseSync_frame (s : State) : raiseSync s = { s with sts := (raiseSync s).sts } := by
  unfold raiseSync
  split <;> rfl

theorem raiseSync_sts (s : State) :
    (raiseSync s).sts = if s.lnk.sync = .stuck then s.sts else { s.sts with syncSeen := true } := by
  unfold raiseSync
  split <;> rfl

/-- Settles O7: both ways into STUCK, which differ in the timer alone. -/
theorem stuckLineEntersStuck : Obligations.StuckLineEntersStuck := by
  intro s hhigh hlow
  have hrun := exec_of_running (i := .stuckLine) (f := takeStuck) (fun _ => rfl) hhigh
  have hsync (l : Lnk) : (lapAlarms ((raiseSync s).modLnk fun _ => enterStuck l)).sync = true := rfl
  have hlnk (f : Lnk → Lnk) : (raiseSync s).modLnk f =
      { s with lnk := f s.lnk, sts := (raiseSync s).sts } := by
    rw [raiseSync_frame]
    rfl
  have hsts1 : s.lnk.sync ≠ .stuck → (raiseSync s).sts = { s.sts with syncSeen := true } := fun h => by
    rw [raiseSync_sts, if_neg h]
  have hsts2 : s.lnk.sync = .stuck → (raiseSync s).sts = s.sts := fun h => by
    rw [raiseSync_sts, if_pos h]
  refine ⟨_, hrun, ?_⟩
  by_cases hmark : s.lnk.markInProgress = true
  · have htake : takeStuck s =
        { s with lnk := enterStuck (advanceTo 320 s.lnk), sts := (raiseSync s).sts } := by
      rw [takeStuck, if_pos hmark, hlnk]
    rw [htake]
    refine ⟨rfl, rfl, rfl, rfl, rfl, advanceTo_sweep _ _, advanceTo_lap _ _, advanceTo_txq _ _,
      advanceTo_lapListen _ _, rfl, hsts1, hsts2, fun h => ?_, fun _ => advanceTo_timer _ _⟩
    rw [hmark] at h
    cases h
  · obtain hlow | hlow := hlow
    · exact absurd hlow hmark
    · have htake : takeStuck s =
          { s with
            lnk := enterStuck (restartTimer (advanceTo 320 s.lnk)), sts := (raiseSync s).sts } := by
        rw [takeStuck, if_neg hmark, if_pos hlow, hlnk]
      rw [htake]
      exact ⟨rfl, rfl, rfl, rfl, rfl, advanceTo_sweep _ _, advanceTo_lap _ _, advanceTo_txq _ _,
        advanceTo_lapListen _ _, rfl, hsts1, hsts2, fun _ => ⟨rfl, slotCount_of_restarted rfl rfl⟩,
        fun h => absurd h hmark⟩

/-! ## Timer expiries -/

/-- A mark driven is long only at lap index 1023 with lap-listen over (R3). -/
theorem markToDrive_eq (l : Lnk) :
    markToDrive l = if l.lap = 1023 ∧ l.lapListen = false then .long else .short := by
  simp [markToDrive]

theorem markToDrive_advanceTo (t : Nat) (l : Lnk) : markToDrive (advanceTo t l) = markToDrive l := by
  simp only [markToDrive, advanceTo_lap, advanceTo_lapListen]

/-- Settles O8: the two expiries end in the same change of LNK, at the mute strap's choice. -/
theorem timerExpiryDrivesMark : Obligations.TimerExpiryDrivesMark := by
  constructor
  · intro s hhigh hsync hrunning hmark hfree hdls
    have hfollow : followRuns s.lnk = true := by
      simp [followRuns, hsync, hrunning, hmark, hfree, hdls]
    have hrun : exec .sweepTimerExpiry s =
        .next (s.modLnk fun _ => followExpiry (mute s.straps) (advanceTo sweepBits s.lnk)) := by
      rw [exec_of_running (i := .sweepTimerExpiry) (fun _ => rfl) hhigh]
      simp only [State.modLnk, expireTimer, hfollow, if_true]
    refine ⟨_, hrun, rfl, ?_⟩
    simp only [State.modLnk_lnk]
    by_cases hmute : s.straps.sn = 0
    · rw [followExpiry, if_pos (mute_iff.mpr hmute)]
      exact ⟨advanceTo_sweep _ _, advanceTo_lap _ _, (advanceTo_sync _ _).trans hsync, advanceTo_txq _ _,
        fun h => absurd hmute h, fun _ => ⟨advanceTo_dls_of_none hdls _, rfl, rfl⟩⟩
    · rw [followExpiry, mute_of_ne hmute, if_neg Bool.false_ne_true, markToDrive_advanceTo,
        markToDrive_eq]
      exact ⟨advanceTo_sweep _ _, advanceTo_lap _ _, (advanceTo_sync _ _).trans hsync, advanceTo_txq _ _,
        fun _ => ⟨rfl, advanceTo_timer _ _⟩, fun h => absurd h hmute⟩
  · intro s hhigh hsync hmark hlow hlisten hdls
    have hlistens : listens s.lnk = true := by simp [listens, hsync, hmark, hlow]
    have hrun : exec .listenPeriodExpiry s =
        .next (s.modLnk fun _ => followExpiry (mute s.straps)
          { advanceTo listenBits s.lnk with sync := .follow }) := by
      rw [exec_of_running (i := .listenPeriodExpiry) (fun _ => rfl) hhigh]
      simp only [State.modLnk, endListen, hlistens, if_true]
    refine ⟨_, hrun, rfl, ?_⟩
    simp only [State.modLnk_lnk]
    by_cases hmute : s.straps.sn = 0
    · rw [followExpiry, if_pos (mute_iff.mpr hmute)]
      exact ⟨rfl, advanceTo_sweep _ _, advanceTo_lap _ _, fun h => absurd hmute h,
        fun _ => ⟨advanceTo_dls_of_none hdls _, slotCount_of_restarted rfl rfl, rfl⟩⟩
    · rw [followExpiry, mute_of_ne hmute, if_neg Bool.false_ne_true, markToDrive_eq]
      refine ⟨rfl, advanceTo_sweep _ _, advanceTo_lap _ _, fun _ => ?_, fun h => absurd h hmute⟩
      simp only [advanceTo_lapListen, hlisten, Bool.true_eq_false, and_false, if_false]

/-- Settles O9: each expiry that drives no mark is a sweep start as after a short mark. -/
theorem freeRunStartsSweep : Obligations.FreeRunStartsSweep := by
  constructor
  · intro s hhigh hdue hsync
    have hrun : exec .freeRunExpiry s = .next (sweepStart .short (s.modLnk endFreeSlot)) := by
      rw [exec_of_running (i := .freeRunExpiry) (fun _ => rfl) hhigh]
      simp only [takeFreeRun, hdue, hsync, decide_true, Bool.and_self, if_true]
    have hlnk := sweepStart_lnk .short (s.modLnk endFreeSlot)
    have hframe := sweepStart_frame .short (s.modLnk endFreeSlot)
    refine ⟨_, hrun, by rw [hlnk]; rfl, ?_, ?_, ?_, ?_,
      sweepStart_started _ s (advanceTo_txq slotBits s.lnk), read_of_frame State.ptb hframe rfl,
      read_of_frame State.lay hframe rfl, read_of_frame State.pnt hframe rfl,
      read_of_frame State.cpl hframe rfl, sweepStart_records _ _⟩
    · rw [hlnk]
      exact congrArg (· + 1) (advanceTo_sweep slotBits s.lnk)
    · rw [hlnk]
      exact congrArg (· + 1) (advanceTo_lap slotBits s.lnk)
    · rw [hlnk]
      exact (advanceTo_sync slotBits s.lnk).trans hsync
    · rw [hlnk]
      exact advanceTo_timer slotBits s.lnk
  · intro s hhigh hsync hmark hdls
    have hruns : stuckRuns s.lnk = true := by simp [stuckRuns, hsync, hmark, hdls]
    have hrun := exec_of_running (i := .stuckTimerExpiry) (f := takeStuckTimer) (fun _ => rfl) hhigh
    by_cases hdrive : (advanceTo sweepBits s.lnk).lineFree = true ∧ s.straps.sn ≠ 0
    · have htake : takeStuckTimer s = s.modLnk fun _ =>
          { advanceTo sweepBits s.lnk with dls := some (markToDrive (advanceTo sweepBits s.lnk)) } := by
        simp only [takeStuckTimer, hruns, hdrive.1, mute_of_ne hdrive.2, if_true, Bool.not_false,
          Bool.and_self]
      rw [htake] at hrun
      refine ⟨_, hrun, (advanceTo_sync _ _).trans hsync, ?_⟩
      refine (if_pos hdrive).mpr ?_
      refine ⟨rfl, advanceTo_sweep _ _, advanceTo_lap _ _, ?_⟩
      rw [State.modLnk_lnk, markToDrive_advanceTo, markToDrive_eq]
    · have hno : ((advanceTo sweepBits s.lnk).lineFree && !mute s.straps) = false := by
        simpa [mute] using hdrive
      have htake : takeStuckTimer s =
          sweepStart .short (s.modLnk fun _ => restartTimer (advanceTo sweepBits s.lnk)) := by
        simp only [takeStuckTimer, hruns, hno, if_true, Bool.false_eq_true, if_false]
      rw [htake] at hrun
      have hlnk := sweepStart_lnk .short (s.modLnk fun _ => restartTimer (advanceTo sweepBits s.lnk))
      have hframe := sweepStart_frame .short (s.modLnk fun _ => restartTimer (advanceTo sweepBits s.lnk))
      refine ⟨_, hrun, by rw [hlnk]; exact (advanceTo_sync _ _).trans hsync, ?_⟩
      refine (if_neg hdrive).mpr ?_
      refine ⟨?_, ?_, by rw [hlnk]; rfl, slotCount_of_restarted (by rw [hlnk]; rfl) (by rw [hlnk]; rfl),
        ?_, sweepStart_started _ s (f := fun _ => restartTimer (advanceTo sweepBits s.lnk))
          (advanceTo_txq sweepBits s.lnk),
        read_of_frame State.pnt hframe rfl, read_of_frame State.cpl hframe rfl⟩
      · rw [hlnk]
        exact congrArg (· + 1) (advanceTo_sweep sweepBits s.lnk)
      · rw [hlnk]
        exact congrArg (· + 1) (advanceTo_lap sweepBits s.lnk)
      · rw [hlnk]
        exact advanceTo_dls_of_none hdls sweepBits

/-- Settles O10: each edge moves the clock and then the free time; lap-listen is one flag. -/
theorem lineEdgesAndLapListen : Obligations.LineEdgesAndLapListen := by
  refine ⟨fun edge s hhigh hmark => ?_, fun edge s hhigh hsync hmark => ?_, fun s hhigh hover => ?_⟩
  · refine ⟨_, exec_of_running (i := .stuckLineRisingEdge edge) (fun _ => rfl) hhigh, rfl, ?_⟩
    refine (if_neg (Bool.eq_false_iff.mp hmark)).trans ?_
    exact congrArg (fun l : Lnk => { l with freeTime := some 0, lowSinceRelease := false })
      (advanceTo_unmarked hmark edge)
  · refine ⟨_, exec_of_running (i := .unrecognisedFallingEdge edge) (fun _ => rfl) hhigh, rfl, ?_⟩
    refine (if_neg fun h => ?_).trans ?_
    · exact h.elim (· hsync) (Bool.eq_false_iff.mp hmark)
    · exact congrArg (fun l : Lnk => { l with freeTime := none }) (advanceTo_unmarked hmark edge)
  · refine ⟨_, exec_of_running (i := .lapListenEnd) (fun _ => rfl) hhigh, ?_⟩
    have : lapListenOver s.lnk = true := by simpa [lapListenOver] using hover
    simp only [State.modLnk, endLapListen, this, Bool.not_true, Bool.and_false]

/-! ## Sending -/

theorem maySend_eq_false {s : State} {slot : Nat}
    (h : s.lnk.begunSlot = some slot ∨ s.lnk.sync ≠ .follow ∨ s.straps.sn = 0 ∨
      s.lnk.markInProgress = true) : maySend s slot = false := by
  rw [← Bool.not_eq_true, maySend_iff]
  rintro ⟨hsync, hsn, -, hmark, -, hslot, -⟩
  obtain h | h | h | h := h
  · exact hslot h
  · exact h hsync
  · exact hsn h
  · rw [hmark] at h
    cases h

/-- Settles O11: the parcel built at the slot's start is driven, or nothing happens. -/
theorem homeSlotSends : Obligations.HomeSlotSends := by
  refine ⟨fun s hhigh hsync hsn hrunning hmark htimer hdld hslot => ?_, fun s hhigh hno => ?_,
    fun s x hhigh hx hhome => ?_⟩
  · have hmay : maySend s s.own.toNat = true :=
      (maySend_iff s _).mpr ⟨hsync, hsn, hrunning, hmark, htimer, hslot, advanceTo_dld_of_none hdld _⟩
    have hrun := exec_of_running (i := .homeSlotTransmit) (f := sendHome) (fun _ => rfl) hhigh
    rw [sendHome, if_pos hmay] at hrun
    refine ⟨_, hrun, rfl, rfl, rfl, ?_, advanceTo_txq _ _, advanceTo_sweep _ _, advanceTo_lap _ _,
      (advanceTo_sync _ _).trans hsync⟩
    exact (advanceTo_timer _ _).trans (max_eq_left htimer)
  · rw [exec_of_running (i := .homeSlotTransmit) (f := sendHome) (fun _ => rfl) hhigh, sendHome,
      maySend_eq_false hno, if_neg Bool.false_ne_true]
  · refine ⟨_, exec_of_running (i := .homeSlotClash) (f := clashHome) (fun _ => rfl) hhigh, ?_⟩
    have : s.lnk.dld.any (fun x => x.home) = true := by rw [hx]; exact hhome
    rw [clashHome, if_pos this]
    rfl

/-- Settles O12: the head of the queue is driven from the slot's start; each outcome releases DLD and
takes the head off the queue or leaves it. -/
theorem openSlotSends : Obligations.OpenSlotSends := by
  refine ⟨fun slot s p rest hhigh h16 hsync hsn hrunning hmark htimer hdld hslot hq => ?_,
    fun slot s hhigh hno => ?_, fun mismatch s x hhigh hx hhome => ?_⟩
  · have hmay : maySend s slot.toNat = true :=
      (maySend_iff s _).mpr ⟨hsync, hsn, hrunning, hmark, htimer, hslot, advanceTo_dld_of_none hdld _⟩
    have hrun := exec_of_running (i := .openSlotAttempt slot) (f := attemptOpen slot.toNat)
      (fun _ => rfl) hhigh
    have htake : attemptOpen slot.toNat s =
        s.modLnk (driveParcel { slot := slot.toNat, home := false, parcel := p }) := by
      simp only [attemptOpen, hq, h16, hmay, and_self, if_true]
    rw [htake] at hrun
    exact ⟨_, hrun, rfl, rfl, (advanceTo_txq _ _).trans hq, rfl,
      (advanceTo_timer _ _).trans (max_eq_left htimer), advanceTo_sweep _ _, advanceTo_lap _ _⟩
  · rw [exec_of_running (i := .openSlotAttempt slot) (f := attemptOpen slot.toNat) (fun _ => rfl) hhigh,
      attemptOpen]
    split
    · rfl
    · next p rest hq =>
      have hmay : maySend s slot.toNat = false := maySend_eq_false <| by
        rw [hq] at hno
        obtain h | h | h | h := hno
        · exact .inl h
        · exact .inr (.inl h)
        · exact .inr (.inr (.inl h))
        · cases h
      rw [hmay, if_neg fun h => Bool.false_ne_true h.2]
  · have hrun := exec_of_running (i := .openSlotOutcome mismatch) (f := endOpen mismatch) (fun _ => rfl)
      hhigh
    have htake : endOpen mismatch s = openOutcome mismatch x s := by
      simp only [endOpen, hx, hhome, Bool.false_eq_true, if_false]
    rw [htake] at hrun
    refine ⟨_, hrun, ?_⟩
    cases mismatch with
    | none =>
      refine ⟨rfl, rfl, advanceTo_begunSlot _ _, advanceTo_sync _ _, advanceTo_sweep _ _,
        fun _ => ⟨rfl, rfl, rfl⟩, by simp, by simp⟩
    | some b =>
      by_cases hb : b.toNat < 8
      · rw [openOutcome, if_pos hb]
        refine ⟨rfl, rfl, rfl, rfl, rfl, by simp, fun _ _ _ => ⟨rfl, rfl⟩, fun c hc h8 => ?_⟩
        obtain rfl := Option.some.inj hc
        omega
      · rw [openOutcome, if_neg hb]
        refine ⟨rfl, rfl, rfl, rfl, rfl, by simp, fun c hc h8 => ?_, fun _ _ _ => ⟨rfl, rfl⟩⟩
        obtain rfl := Option.some.inj hc
        exact absurd h8 hb

end Sys2Proof.Machine

/-! PROOFS. The arrival of parcels (spec/01_desk_link.md sections 1.8 and 1.9). -/

namespace Sys2Proof.Machine

/-! ## Counters and tallies -/

theorem bumpTally_toNat (t : BitVec 16) : (bumpTally t).toNat = min 65535 (t.toNat + 1) := by
  unfold bumpTally
  split
  · next h =>
    rw [h]
    rfl
  · next h =>
    have hlt := t.isLt
    have hne : t.toNat ≠ 65535 := fun e => h (BitVec.eq_of_toNat_eq e)
    have hone : (1 : BitVec 16).toNat = 1 := rfl
    rw [BitVec.toNat_add, hone]
    omega

/-! ## Receive filtering -/

/-- A parcel of another station with a known origin: taken by its block, or counted alone when it is
for another station. -/
theorem receive_filtered {s : State} {rx : Rx} (targeted : Bool) (act : State → State)
    (h : s.hears rx false) :
    receive rx targeted act s =
      if (targeted && !forThis s rx) = true then s.arrived rx else act (s.arrived rx) := by
  obtain ⟨-, hr, h0, hown, -⟩ := h
  have hown' : rx.origin ≠ s.own := hown
  simp only [receive, hr, h0, if_false, Bool.not_true, Bool.false_eq_true]
  rw [if_neg hown']
  rfl

theorem forThis_eq_false {s : State} {rx : Rx} (h0 : rx.target ≠ 0) (hown : rx.target ≠ s.own) :
    forThis s rx = false := by
  rw [forThis, decide_eq_false h0, decide_eq_false hown]
  rfl

/-- Every parcel goes through receive filtering. -/
theorem exec_of_rxOf {i : Instr} {rx : Rx} (h : rxOf i = some rx) :
    ∃ targeted act, ∀ u, exec i u = running (receive rx targeted act) u :=
  match i, h with
  | .goodParcelIgnored .., rfl | .presence .., rfl | .mark .., rfl | .tick .., rfl
  | .commandBadCode .., rfl | .showPage .., rfl | .release .., rfl | .run .., rfl | .halt .., rfl
  | .freeze .., rfl | .thaw .., rfl | .override .., rfl | .crawlFlush .., rfl
  | .counterClear .., rfl | .layoutClear .., rfl | .layoutBadKind .., rfl | .field .., rfl
  | .label .., rfl | .window .., rfl | .policy .., rfl | .palette .., rfl | .condlabel .., rfl
  | .carousel .., rfl | .crawlprog .., rfl | .global .., rfl | .handoff .., rfl
  | .crawltext .., rfl => ⟨_, _, fun _ => rfl⟩

/-- A checked parcel is targeted. -/
theorem exec_of_targeted {i : Instr} {rx : Rx}
    (h : (∃ c, i.checked = some (rx, c)) ∨ (∃ b, i = .crawltext rx b) ∨
      i = .goodParcelIgnored rx .refresh) :
    ∃ act, ∀ u, exec i u = running (receive rx true act) u := by
  obtain ⟨⟨kind, code⟩, hc⟩ | ⟨b, rfl⟩ | rfl := h
  · obtain ⟨-, act, hact⟩ | ⟨-, act, hact⟩ := exec_of_checked hc
    · exact ⟨_, fun u => hact u⟩
    · exact ⟨_, fun u => hact u⟩
  · exact ⟨_, fun _ => rfl⟩
  · exact ⟨_, fun _ => rfl⟩

theorem discardParcel_of_receives {s : State} {slot : Slot} (count : State → State)
    (h : s.lnk.receives slot = true) :
    discardParcel slot count s = count (s.modLnk (advanceTo (parcelEnd slot.toNat))) := if_pos h

theorem mem_hear {rx : Rx} {l : Lnk} {n : Nat} :
    n ∈ (hear rx l).heard ↔
      n ∈ l.heard ∨ (n = rx.origin.toNat ∧ rx.slot.toNat = rx.origin.toNat) := by
  unfold hear
  split
  · next h =>
    rw [NatSet.mem_insert]
    simp only [h, and_true]
    exact or_comm
  · next h => simp [h]

theorem hear_frame (rx : Rx) (l : Lnk) : hear rx l = { l with heard := (hear rx l).heard } := by
  unfold hear
  split <;> rfl

/-- Settles O13: the four ends of a reception that no block takes. -/
theorem parcelArrives : Obligations.ParcelArrives := by
  refine ⟨fun slot s hhigh hrec => ?_, fun rx kind s hh => ?_, fun i rx s hi hhigh hrec h0 hown => ?_,
    fun i rx s hi hh h0 hown => ?_⟩
  · refine ⟨_, _, exec_of_running (i := .crcError slot) (fun _ => rfl) hhigh,
      exec_of_running (i := .malformedParcel slot) (fun _ => rfl) hhigh, ?_⟩
    rw [discardParcel_of_receives _ hrec, discardParcel_of_receives _ hrec]
    exact ⟨rfl, rfl, rfl, rfl, bump_of_ne_allOnes, bumpTally_toNat _, advanceTo_heard _ _,
      advanceTo_timer _ _⟩
  · have hrun := exec_of_running (i := .goodParcelIgnored rx kind)
      (f := receive rx (IgnoredKind.targeted kind) id) (fun _ => rfl) hh.1
    rw [receive_filtered _ _ hh, id_eq, ite_self] at hrun
    refine ⟨_, hrun, rfl, rfl, rfl, bump_of_ne_allOnes, ?_⟩
    rw [State.arrived_lnk, hear_frame]
    refine ⟨advanceTo_timer _ _, advanceTo_txq _ _, advanceTo_sweep _ _, advanceTo_lap _ _,
      advanceTo_sync _ _, fun n => ?_⟩
    exact mem_hear.trans (by rw [advanceTo_heard])
  · obtain ⟨targeted, act, hexec⟩ := exec_of_rxOf hi
    refine ⟨_, exec_of_running hexec hhigh, ?_⟩
    have h0' : rx.origin ≠ 0 := h0
    simp only [receive, hrec, Bool.not_true, Bool.false_eq_true, if_false]
    rw [if_neg h0', if_pos hown]
    exact ⟨rfl, rfl⟩
  · obtain ⟨act, hexec⟩ := exec_of_targeted hi
    rw [exec_of_running hexec hh.1, receive_filtered _ _ hh, forThis_eq_false h0 hown]
    rfl

end Sys2Proof.Machine

/-! PROOFS. The peer table, the mark table and source switching
(spec/02_peer_table_marks_and_layout_origin.md, spec/04_instrument_directory.md section 4.6). -/

namespace Sys2Proof.Machine

/-! ## Marks -/

theorem settleMarks_record? {Q : Record → Prop} {s : State} (ht : s.recordsTabled Q) (k j : Key) :
    (settleMarks s k).record? j =
      if j = k then (s.record? j).map fun r => { r with marks := markCount s.ptb k }
      else s.record? j := by
  unfold settleMarks
  cases hr : s.record? k with
  | none =>
    dsimp only
    split
    · next e => rw [e, hr]; rfl
    · rfl
  | some r =>
    dsimp only
    rw [State.record?_setRecord]
    have hkey : (j = r.key) = (j = k) := by rw [(ht.key hr).1]
    simp only [hkey]
    split
    · next e => rw [e, hr]; rfl
    · rfl

theorem settleMarks_ptb (s : State) (k : Key) : (settleMarks s k).ptb = s.ptb := by
  unfold settleMarks
  split <;> rfl

theorem settleMarks_tabled {s : State} (k : Key) (h : s.recordsTabled fun _ => True) :
    (settleMarks s k).recordsTabled fun _ => True := by
  unfold settleMarks
  split
  · exact h
  · exact h.setRecord trivial

theorem foldl_settleMarks_record? (keys : List Key) {s : State}
    (ht : s.recordsTabled fun _ => True) (j : Key) :
    (keys.foldl settleMarks s).record? j =
      (s.record? j).map fun r => if j ∈ keys then { r with marks := markCount s.ptb j } else r := by
  induction keys generalizing s with
  | nil => simp
  | cons k keys ih =>
    rw [List.foldl_cons, ih (settleMarks_tabled k ht), settleMarks_record? ht, settleMarks_ptb]
    cases hr : s.record? j with
    | none => by_cases hjk : j = k <;> simp [hjk]
    | some r =>
      by_cases hjk : j = k
      · subst hjk
        by_cases hmem : j ∈ keys <;> simp [hmem]
      · by_cases hmem : j ∈ keys <;> simp [hmem, hjk]

theorem State.recordsTabled.weaken {Q : Record → Prop} {s : State} (h : s.recordsTabled Q) :
    s.recordsTabled fun _ => True := by
  obtain ⟨h1, h2, h3, h4, h5⟩ := h
  exact ⟨h1, h2, h3, h4, fun e he => ⟨(h5 e he).1, trivial⟩⟩

theorem look_marks_setMark (n : Station) (m : Option Key) (s : State) (j : Nat) :
    Tab.look j (setMark n m s).ptb.marks = if j = n.toNat then m else Tab.look j s.ptb.marks := by
  rw [setMark_ptb]
  exact look_marksWith n m s.ptb.marks j

/-- A change of the mark table brings every record's mark count with it (R30). -/
theorem setMark_record? {Q : Record → Prop} {s : State} (n : Station) (m : Option Key)
    (h : s.recordsMatchBut Q noKey noKey) (k : Key) :
    (setMark n m s).record? k =
      (s.record? k).map fun r => { r with marks := markCount (setMark n m s).ptb k } := by
  have hptb := setMark_ptb n m s
  rw [setMark_eq] at hptb ⊢
  have ht : (s.modPtb fun p => { p with marks := marksWith n m p.marks }).recordsTabled
      fun _ => True := by
    obtain ⟨h1, h2, h3, h4, h5⟩ := h.1.weaken
    exact ⟨h1, h2, rising_marksWith n m h3, h4, h5⟩
  rw [foldl_settleMarks_record? _ ht, hptb]
  show Option.map _ (s.record? k) = _
  cases hr : s.record? k with
  | none => rfl
  | some r =>
    simp only [Option.map_some, Option.some.injEq]
    split
    · rfl
    · next hk =>
      rw [List.mem_append, Option.mem_toList, Option.mem_toList, not_or] at hk
      have hsame := markCount_marksWith (p := s.ptb) h.1.2.2.1 hk.1 hk.2
      rw [hsame, ← h.2.2.1 k r hr id]

theorem setMark_dir (n : Station) (m : Option Key) (s : State) :
    (setMark n m s).dir = { s.dir with records := (setMark n m s).dir.records } :=
  congrArg (fun q => ({ (setMark n m s).dir with refresh := q } : Dir)) (setMark_refresh n m s)

/-! ## The switch of the sources -/

/-- A record after the switch of the records of a station that has gone (R67). -/
def switched (s : State) (gone : Station) (r : Record) : Record :=
  if r.source = some gone then switchRecord s gone r
  else if r.alternate = some gone then { r with alternate := none }
  else r

theorem switchRecord_congr {s t : State} (h : ∀ a, t.isPresent a = s.isPresent a) (gone : Station)
    (r : Record) : switchRecord t gone r = switchRecord s gone r := by
  unfold switchRecord
  simp only [h]

theorem switched_congr {s t : State} (h : ∀ a, t.isPresent a = s.isPresent a) (gone : Station)
    (r : Record) : switched t gone r = switched s gone r := by
  unfold switched
  rw [switchRecord_congr h]

theorem switched_key (s : State) (gone : Station) (r : Record) : (switched s gone r).key = r.key := by
  unfold switched
  split
  · exact (switchRecord_keeps s gone r).1
  · split <;> rfl

theorem switchOne_record? {Q : Record → Prop} {s : State} (ht : s.recordsTabled Q) (gone : Station)
    (k j : Key) :
    (switchOne gone s k).record? j =
      if j = k then (s.record? j).map (switched s gone) else s.record? j := by
  have hask (u : State) (i : Key) : (askRefresh i u).record? j = u.record? j := by
    rw [State.record?, askRefresh_records]
    rfl
  unfold switchOne
  cases hr : s.record? k with
  | none =>
    dsimp only
    split
    · next e => rw [e, hr]; rfl
    · rfl
  | some r =>
    have hkey := (ht.key hr).1
    have hset (r' : Record) (hr' : r'.key = r.key) (u : State) (hu : u.record? j = s.record? j)
        (hs : switched s gone r = r') : (u.setRecord r').record? j =
        if j = k then (s.record? j).map (switched s gone) else s.record? j := by
      rw [State.record?_setRecord, hr', hkey]
      split
      · next e => rw [e, hr, Option.map_some, hs]
      · exact hu
    dsimp only
    split
    · next hsrc =>
      have hs : switched s gone r = switchRecord s gone r := if_pos hsrc
      have := hset _ (switchRecord_keeps s gone r).1 (dropRefresh k s) rfl hs
      split
      · rw [hask]; exact this
      · exact this
    · next hsrc =>
      split
      · next halt => exact hset { r with alternate := none } rfl s rfl (by rw [switched, if_neg hsrc, if_pos halt])
      · next halt =>
        split
        · next e => rw [e, hr, Option.map_some, switched, if_neg hsrc, if_neg halt]
        · rfl

theorem switchOne_tabled {s : State} (gone : Station) (k : Key)
    (h : s.recordsTabled fun _ => True) : (switchOne gone s k).recordsTabled fun _ => True := by
  have hask (u : State) (hu : u.recordsTabled fun _ => True) :
      (askRefresh k u).recordsTabled fun _ => True := by
    have hf := askRefresh_frame k u
    rw [State.recordsTabled, read_of_frame (fun s => s.lay) hf rfl,
      read_of_frame (fun s => s.ptb) hf rfl, askRefresh_records]
    exact hu
  unfold switchOne
  split
  · exact h
  · next r _ =>
    dsimp only
    split
    · have hset : ((dropRefresh k s).setRecord (switchRecord s gone r)).recordsTabled fun _ => True :=
        State.recordsTabled.setRecord (s := dropRefresh k s) h trivial
      split
      · exact hask _ hset
      · exact hset
    · split
      · exact h.setRecord trivial
      · exact h

theorem switchOne_isPresent (gone : Station) (s : State) (k : Key) (a : Station) :
    (switchOne gone s k).isPresent a = s.isPresent a := by
  have hf := switchOne_frame gone s k
  unfold State.isPresent State.own
  rw [read_of_frame State.ptb hf rfl, read_of_frame State.straps hf rfl]

theorem foldl_switchOne_record? (gone : Station) {l : List Key} (hl : l.Nodup) {s : State}
    (ht : s.recordsTabled fun _ => True) (j : Key) :
    (l.foldl (switchOne gone) s).record? j =
      if j ∈ l then (s.record? j).map (switched s gone) else s.record? j := by
  induction l generalizing s with
  | nil => simp
  | cons k l ih =>
    obtain ⟨hk, hl⟩ := List.nodup_cons.mp hl
    rw [List.foldl_cons, ih hl (switchOne_tabled gone k ht), switchOne_record? ht]
    have hcongr := switched_congr (switchOne_isPresent gone s k) gone
    by_cases hjk : j = k
    · subst hjk
      rw [if_neg hk, if_pos rfl, if_pos List.mem_cons_self]
    · simp only [List.mem_cons, hjk, false_or, if_false]
      split
      · exact congrArg (Option.map · _) (funext hcongr)
      · rfl

theorem perm_placeByRank (k : Key) (l : List Key) : (placeByRank k l).Perm (k :: l) := by
  induction l with
  | nil => exact List.Perm.refl _
  | cons j l ih =>
    unfold placeByRank
    split
    · exact List.Perm.refl _
    · exact (ih.cons j).trans (List.Perm.swap k j l)

theorem perm_switchOrder (d : Dir) : (switchOrder d).Perm (d.records.map fun e => e.2.key) := by
  unfold switchOrder
  induction d.records.map (fun e => e.2.key) with
  | nil => exact List.Perm.refl _
  | cons k l ih => exact (perm_placeByRank k _).trans (ih.cons k)

theorem State.recordsTabled.nodup_keys {Q : Record → Prop} {s : State} (h : s.recordsTabled Q) :
    (s.dir.records.map fun e => e.2.key).Nodup := by
  obtain ⟨-, -, -, hr, hk⟩ := h
  have hmap : (s.dir.records.map fun e => e.2.key).map BitVec.toNat = s.dir.records.map Prod.fst := by
    rw [List.map_map]
    exact List.map_congr_left fun e he => ((hk e he).1).symm
  exact List.Nodup.of_map _ (hmap ▸ Tab.nodup_keys hr)

theorem State.recordsTabled.mem_switchOrder {Q : Record → Prop} {s : State} (h : s.recordsTabled Q)
    {k : Key} : k ∈ switchOrder s.dir ↔ (s.record? k).isSome = true := by
  rw [(perm_switchOrder s.dir).mem_iff, List.mem_map, Option.isSome_iff_exists]
  constructor
  · rintro ⟨e, he, rfl⟩
    exact ⟨_, h.record_of_mem he⟩
  · rintro ⟨r, hr⟩
    exact ⟨_, Tab.mem_of_look hr, (h.key hr).1⟩

/-- Every record is switched, each by the peers as they stand (R67). -/
theorem switchSources_record? {Q : Record → Prop} {s : State} (h : s.recordsTabled Q) (gone : Station)
    (k : Key) : (switchSources gone s).record? k = (s.record? k).map (switched s gone) := by
  have hn : (switchOrder s.dir).Nodup := (perm_switchOrder s.dir).nodup_iff.mpr h.nodup_keys
  rw [switchSources, foldl_switchOne_record? gone hn h.weaken]
  split
  · rfl
  · next hk =>
    rw [h.mem_switchOrder, Bool.not_eq_true, Option.isSome_eq_false_iff, Option.isNone_iff_eq_none] at hk
    rw [hk]
    rfl

/-! ## The requests of the switched records -/

/-- The request that a record come to GAPPED makes for its source. -/
def requestOf (r : Record) : List RefreshEntry :=
  r.source.toList.map fun a => { key := r.key, target := a, second := false, state := .waiting, inPass := false }

theorem askRefresh_refresh {k : Key} {s : State} {r : Record} (hr : s.record? k = some r)
    (hkey : r.key = k) (hnone : ∀ e ∈ s.dir.refresh, e.key ≠ k) :
    (askRefresh k s).dir.refresh =
      s.dir.refresh ++ if mute s.straps = false ∧ s.dir.refresh.length < 16 then requestOf r else [] := by
  have hany : s.dir.refresh.any (fun e => decide (e.key = k)) = false := by
    rw [List.any_eq_false]
    exact fun e he => by simpa using hnone e he
  unfold askRefresh
  rw [hr]
  simp only [Option.bind_some, hany, Bool.or_false]
  cases hs : r.source with
  | none => simp [requestOf, hs]
  | some a =>
    by_cases hc : mute s.straps = false ∧ s.dir.refresh.length < 16
    · have : (mute s.straps || decide (refreshRoom ≤ s.dir.refresh.length)) = false := by
        rw [hc.1, Bool.false_or, decide_eq_false_iff_not]
        exact not_le.mpr hc.2
      simp only [this, Bool.false_eq_true, if_false, if_pos hc, requestOf, hs, Option.toList_some,
        List.map_cons, List.map_nil, hkey]
      rfl
    · have : (mute s.straps || decide (refreshRoom ≤ s.dir.refresh.length)) = true := by
        rw [Bool.or_eq_true, decide_eq_true_eq]
        by_contra hno
        rw [not_or, Bool.not_eq_true, not_le] at hno
        exact hc hno
      simp only [this, if_true, if_neg hc, List.append_nil]

theorem switchRecord_gapped {s : State} {gone : Station} {r : Record}
    (h : (switchRecord s gone r).state = .gapped) :
    ∃ a, r.alternate = some a ∧ s.isPresent a = true ∧ (switchRecord s gone r).source = some a := by
  unfold switchRecord at h ⊢
  dsimp only at h ⊢
  split at h
  · cases h
  · next a ha =>
    split at h
    · next hp =>
      exact ⟨a, ha, hp, congrArg Record.source (if_pos hp)⟩
    · cases h

theorem dropRefresh_none (k : Key) (s : State) : ∀ e ∈ (dropRefresh k s).dir.refresh, e.key ≠ k := by
  intro e he
  simpa using (List.mem_filter.mp he).2

/-- The requests after one record of the switch. -/
theorem switchOne_refresh {s : State} {gone : Station} {k : Key} {r : Record}
    (hr : s.record? k = some r) (hkey : r.key = k) :
    (switchOne gone s k).dir.refresh =
      if r.source = some gone then
        s.dir.refresh.filter (fun e => decide (e.key ≠ k)) ++
          if (switchRecord s gone r).state = .gapped ∧ mute s.straps = false ∧
              (s.dir.refresh.filter (fun e => decide (e.key ≠ k))).length < 16 then
            requestOf (switchRecord s gone r)
          else []
      else s.dir.refresh := by
  unfold switchOne
  rw [hr]
  dsimp only
  split
  · next hsrc =>
    have hk := (switchRecord_keeps s gone r).1.trans hkey
    split
    · next hg =>
      rw [askRefresh_refresh (r := switchRecord s gone r) ?_ hk ?_]
      · simp only [hg, true_and]
        rfl
      · rw [State.record?_setRecord, if_pos hk.symm]
      · exact dropRefresh_none k s
    · next hg =>
      rw [if_neg fun hc => hg hc.1, List.append_nil]
      rfl
  · split <;> rfl

/-- A request that the switch makes: for a record that had the station as its source and has come to
GAPPED with another. -/
def State.switchRequest (s : State) (gone : Station) (e : RefreshEntry) : Prop :=
  ∃ r, s.record? e.key = some r ∧ r.source = some gone ∧ (switchRecord s gone r).state = .gapped ∧
    (switchRecord s gone r).source = some e.target ∧ e.second = false ∧ e.state = .waiting ∧
    e.inPass = false

theorem mem_requestOf {r : Record} {e : RefreshEntry} (h : e ∈ requestOf r) :
    e.key = r.key ∧ r.source = some e.target ∧ e.second = false ∧ e.state = .waiting ∧
      e.inPass = false := by
  unfold requestOf at h
  obtain ⟨a, ha, rfl⟩ := List.mem_map.mp h
  exact ⟨rfl, Option.mem_toList.mp ha, rfl, rfl, rfl⟩

/-- The records of a list of keys that have the station as their source. -/
def sourcedBy (s : State) (gone : Station) (l : List Key) : List Key :=
  l.filter fun k => decide ((s.record? k).bind Record.source = some gone)

/-- The requests after the switch of the records of some keys: those of the records that had the station
as their source are gone, and new ones stand behind the others (R67, R69, R71). -/
theorem foldl_switchOne_refresh (gone : Station) {l : List Key} (hl : l.Nodup) {s : State}
    (ht : s.recordsTabled fun _ => True) :
    ∃ new, (l.foldl (switchOne gone) s).dir.refresh =
        s.dir.refresh.filter (fun e => decide (e.key ∉ sourcedBy s gone l)) ++ new ∧
      (∀ e ∈ new, e.key ∈ l ∧ s.switchRequest gone e) ∧ (new.map RefreshEntry.key).Nodup ∧
      (mute s.straps = true → new = []) ∧
      (mute s.straps = false → s.dir.refresh.length + (sourcedBy s gone l).length ≤ 16 →
        ∀ k ∈ l, ∀ r, s.record? k = some r → r.source = some gone →
          (switchRecord s gone r).state = .gapped → ∃ e ∈ new, e.key = k) := by
  induction l generalizing s with
  | nil => exact ⟨[], by simp [sourcedBy], by simp, List.nodup_nil, fun _ => rfl, by simp⟩
  | cons k l ih =>
    obtain ⟨hk, hl⟩ := List.nodup_cons.mp hl
    obtain ⟨new, hrefresh, hreq, hnodup, hmute, hall⟩ := ih hl (switchOne_tabled gone k ht)
    have hother (j : Key) (hj : j ∈ l) : (switchOne gone s k).record? j = s.record? j := by
      rw [switchOne_record? ht, if_neg]
      rintro rfl
      exact hk hj
    have hsourced : sourcedBy (switchOne gone s k) gone l = sourcedBy s gone l :=
      List.filter_congr fun j hj => by rw [hother j hj]
    have hstraps : (switchOne gone s k).straps = s.straps :=
      read_of_frame State.straps (switchOne_frame gone s k) rfl
    have hsame (r : Record) : switchRecord (switchOne gone s k) gone r = switchRecord s gone r :=
      switchRecord_congr (switchOne_isPresent gone s k) gone r
    have hreq' : ∀ e ∈ new, e.key ∈ l ∧ s.switchRequest gone e := fun e he => by
      obtain ⟨hmem, r, hr, hrest⟩ := hreq e he
      rw [hother _ hmem] at hr
      rw [hsame] at hrest
      exact ⟨hmem, r, hr, hrest⟩
    rw [hsourced] at hrefresh hall
    rw [hstraps] at hmute hall
    have hall' : mute s.straps = false →
        (switchOne gone s k).dir.refresh.length + (sourcedBy s gone l).length ≤ 16 →
        ∀ j ∈ l, ∀ r, s.record? j = some r → r.source = some gone →
          (switchRecord s gone r).state = .gapped → ∃ e ∈ new, e.key = j := by
      intro hm hlen j hj r hr hs hg
      exact hall hm hlen j hj r (by rw [hother j hj]; exact hr) hs (by rw [hsame]; exact hg)
    rw [List.foldl_cons]
    by_cases hsrc : (s.record? k).bind Record.source = some gone
    · obtain ⟨r, hr, hs⟩ := Option.bind_eq_some_iff.mp hsrc
      have hkey := (ht.key hr).1
      have hone := switchOne_refresh (gone := gone) hr hkey
      rw [if_pos hs] at hone
      have hcons : sourcedBy s gone (k :: l) = k :: sourcedBy s gone l := by
        simp [sourcedBy, hsrc]
      generalize hask : (if (switchRecord s gone r).state = .gapped ∧ mute s.straps = false ∧
          (s.dir.refresh.filter (fun e => decide (e.key ≠ k))).length < 16 then
          requestOf (switchRecord s gone r) else []) = ask at hone
      have haskmem : ∀ e ∈ ask, e.key = k ∧ s.switchRequest gone e := by
        intro e he
        rw [← hask] at he
        split at he
        · next hc =>
          obtain ⟨h1, h2, h3, h4, h5⟩ := mem_requestOf he
          have hek : e.key = k := h1.trans ((switchRecord_keeps s gone r).1.trans hkey)
          exact ⟨hek, r, hek ▸ hr, hs, hc.1, h2, h3, h4, h5⟩
        · cases he
      have hasklen : ask.length ≤ 1 := by
        rw [← hask]
        split
        · unfold requestOf
          rw [List.length_map]
          cases (switchRecord s gone r).source <;> simp
        · simp
      have hfresh : ask.filter (fun e => decide (e.key ∉ sourcedBy s gone l)) = ask := by
        rw [List.filter_eq_self]
        intro e he
        rw [decide_eq_true_eq, (haskmem e he).1]
        exact fun hmem => hk (List.mem_filter.mp hmem).1
      refine ⟨ask ++ new, ?_, ?_, ?_, fun hm => ?_, fun hm hlen j hj r' hr' hs' hg => ?_⟩
      · rw [hrefresh, hone, List.filter_append, hfresh, List.filter_filter, List.append_assoc, hcons]
        congr 2
        funext e
        simp only [List.mem_cons, not_or, ne_eq, Bool.decide_and]
        exact Bool.and_comm _ _
      · intro e he
        obtain he | he := List.mem_append.mp he
        · obtain ⟨hek, hq⟩ := haskmem e he
          exact ⟨hek ▸ List.mem_cons_self, hq⟩
        · obtain ⟨hmem, hq⟩ := hreq' e he
          exact ⟨List.mem_cons_of_mem _ hmem, hq⟩
      · rw [List.map_append, List.nodup_append]
        refine ⟨?_, hnodup, fun a ha b hb => ?_⟩
        · match ask, hasklen with
          | [], _ => exact List.nodup_nil
          | [e], _ => exact List.nodup_singleton _
        · obtain ⟨e, he, rfl⟩ := List.mem_map.mp ha
          obtain ⟨e', he', rfl⟩ := List.mem_map.mp hb
          rw [(haskmem e he).1]
          rintro rfl
          exact hk (hreq' e' he').1
      · rw [hmute hm, List.append_nil, ← hask, if_neg]
        rintro ⟨-, hm', -⟩
        rw [hm] at hm'
        cases hm'
      · rw [hcons, List.length_cons] at hlen
        have hfilter := List.length_filter_le (fun e : RefreshEntry => decide (e.key ≠ k)) s.dir.refresh
        obtain rfl | hj := List.mem_cons.mp hj
        · obtain rfl : r = r' := Option.some.inj (hr.symm.trans hr')
          obtain ⟨a, -, -, ha⟩ := switchRecord_gapped hg
          rw [if_pos ⟨hg, hm, by omega⟩, requestOf, ha] at hask
          rw [← hask]
          exact ⟨_, List.mem_append_left _ (List.mem_singleton_self _),
            (switchRecord_keeps s gone r).1.trans hkey⟩
        · obtain ⟨e, he, hek⟩ := hall' hm (by rw [hone, List.length_append]; omega) j hj r' hr' hs' hg
          exact ⟨e, List.mem_append_right _ he, hek⟩
    · have hcons : sourcedBy s gone (k :: l) = sourcedBy s gone l := by
        simp [sourcedBy, hsrc]
      have hone : (switchOne gone s k).dir.refresh = s.dir.refresh := by
        cases hr : s.record? k with
        | none =>
          unfold switchOne
          rw [hr]
        | some r =>
          rw [switchOne_refresh hr (ht.key hr).1, if_neg]
          rwa [hr] at hsrc
      rw [hone] at hrefresh hall'
      refine ⟨new, by rw [hrefresh, hcons], fun e he => ⟨List.mem_cons_of_mem _ (hreq' e he).1,
        (hreq' e he).2⟩, hnodup, hmute, fun hm hlen j hj r' hr' hs' hg => ?_⟩
      rw [hcons] at hlen
      obtain rfl | hj := List.mem_cons.mp hj
      · rw [hr'] at hsrc
        exact absurd hs' hsrc
      · exact hall' hm hlen j hj r' hr' hs' hg

end Sys2Proof.Machine

/-! PROOFS. Home-slot reports, PRESENCE and MARK: what a silence or kind change event leaves
(spec/02_peer_table_marks_and_layout_origin.md). -/

namespace Sys2Proof.Machine

/-! ## A station that has gone -/

theorem stationGone_marks (n : Station) (s : State) (j : Nat) :
    Tab.look j (stationGone n s).ptb.marks = if j = n.toNat then none else Tab.look j s.ptb.marks := by
  have hf := read_of_frame State.ptb (switchSources_frame n s) rfl
  show Tab.look j (setMark n none (switchSources n s)).ptb.marks = _
  rw [look_marks_setMark, hf]

theorem stationGone_origin (n : Station) (s : State) :
    (stationGone n s).ptb.origin = if s.ptb.origin = some n then none else s.ptb.origin := by
  show (if (setMark n none (switchSources n s)).ptb.origin = some n then none else
    (setMark n none (switchSources n s)).ptb.origin) = _
  rw [setMark_ptb, switchSources_frame]

theorem switchSources_ptb (n : Station) (s : State) : (switchSources n s).ptb = s.ptb :=
  read_of_frame State.ptb (switchSources_frame n s) rfl

/-- The mark counts rest on the mark table alone. -/
theorem stationGone_markCount (n : Station) (s : State) (k : Key) :
    markCount (stationGone n s).ptb k = markCount (setMark n none (switchSources n s)).ptb k := rfl

/-- The records that a station leaves behind (R26, R30, R67). -/
theorem stationGone_record? {Q : Record → Prop} (hQ : RecordRule Q) {s : State} (n : Station)
    (h : s.recordsMatchBut Q noKey noKey) (k : Key) :
    (stationGone n s).record? k = (s.record? k).map fun r =>
      { switched s n r with marks := markCount (stationGone n s).ptb k } := by
  have h' := setMark_record? n none (switchSources_records hQ n h) k
  rw [switchSources_record? h.1, Option.map_map] at h'
  exact h'

theorem True.rule : RecordRule fun _ => True :=
  ⟨fun _ _ _ => trivial, fun _ _ _ => trivial, fun _ _ _ => trivial, fun _ _ _ _ => trivial,
    fun _ _ => trivial, fun _ _ => trivial, fun _ _ _ => trivial, fun _ _ _ => trivial,
    fun _ _ => trivial, fun _ _ _ _ _ _ _ => trivial⟩

theorem recordsMatchBut_of_match {s : State} (h : s.recordsMatch) :
    s.recordsMatchBut (fun _ => True) noKey noKey :=
  (recordsSound_iff s).mp ⟨h, fun _ _ => trivial⟩

theorem switchRecord_cases (s : State) (gone : Station) (r : Record) :
    (∃ a, r.alternate = some a ∧ s.isPresent a = true ∧ switchRecord s gone r =
      { r with
        lastSeq := none, image := none, deadline := none, source := some a, alternate := none
        state := .gapped }) ∨
    ((∀ a, r.alternate = some a → s.isPresent a = false) ∧ switchRecord s gone r =
      { r with
        lastSeq := none, image := none, deadline := none, source := none
        alternate := if r.alternate = some gone then none else r.alternate
        state := .orphaned }) := by
  unfold switchRecord
  dsimp only
  cases ha : r.alternate with
  | none => exact .inr ⟨by simp, by simp⟩
  | some a =>
    by_cases hp : s.isPresent a = true
    · exact .inl ⟨a, rfl, hp, by simp only [hp, if_true]⟩
    · refine .inr ⟨fun b hb => ?_, ?_⟩
      · obtain rfl := Option.some.inj hb
        exact Bool.eq_false_iff.mpr hp
      · simp only [hp, Bool.false_eq_true, if_false, Option.some.injEq]

/-- A record that a station cannot pass from source to source leaves it altogether. -/
theorem switched_leaves {s : State} {gone : Station} {r : Record}
    (h : r.source = some gone → r.alternate = some gone → s.isPresent gone = false) :
    (switched s gone r).source ≠ some gone ∧ (switched s gone r).alternate ≠ some gone := by
  unfold switched
  split
  · next hsrc =>
    obtain ⟨a, ha, hp, e⟩ | ⟨-, e⟩ := switchRecord_cases s gone r
    · rw [e]
      refine ⟨fun hag => ?_, by simp⟩
      obtain rfl := Option.some.inj hag
      rw [h hsrc ha] at hp
      cases hp
    · rw [e]
      refine ⟨by simp, ?_⟩
      dsimp only
      split
      · simp
      · assumption
  · next hsrc =>
    split
    · exact ⟨hsrc, by simp⟩
    · exact ⟨hsrc, ‹_›⟩

theorem length_sourcedBy {Q : Record → Prop} {s : State} (h : s.recordsTabled Q) (gone : Station) :
    (sourcedBy s gone (switchOrder s.dir)).length =
      (s.dir.records.filter fun e => decide (e.2.source = some gone)).length := by
  have hperm : (sourcedBy s gone (switchOrder s.dir)).Perm
      (sourcedBy s gone (s.dir.records.map fun e => e.2.key)) := (perm_switchOrder s.dir).filter _
  rw [hperm.length_eq, sourcedBy, List.filter_map, List.length_map]
  congr 1
  exact List.filter_congr fun e he => by
    simp only [Function.comp_apply, h.record_of_mem he, Option.bind_some]

theorem not_mem_sourcedBy {Q : Record → Prop} {s : State} (h : s.recordsTabled Q) {gone : Station}
    {k : Key} : k ∉ sourcedBy s gone (switchOrder s.dir) ↔ (s.record? k).bind Record.source ≠ some gone := by
  rw [sourcedBy, List.mem_filter, h.mem_switchOrder, decide_eq_true_eq, not_and]
  refine ⟨fun hn hb => hn ?_ hb, fun hn _ => hn⟩
  obtain ⟨r, hr, -⟩ := Option.bind_eq_some_iff.mp hb
  rw [hr]
  rfl

/-- The requests that a station leaves behind (R67, R69, R71). -/
theorem stationGone_refreshSwitched {s : State} (n : Station)
    (h : s.recordsMatchBut (fun _ => True) noKey noKey) : s.refreshSwitched (stationGone n s) n := by
  obtain ⟨new, hrefresh, hreq, hnodup, hmute, hall⟩ := foldl_switchOne_refresh n
    ((perm_switchOrder s.dir).nodup_iff.mpr h.1.nodup_keys) h.1
  have hkept : s.dir.refresh.filter (fun e => decide (e.key ∉ sourcedBy s n (switchOrder s.dir))) =
      s.dir.refresh.filter (fun e => decide ((s.record? e.key).bind Record.source ≠ some n)) :=
    List.filter_congr fun e _ => decide_eq_decide.mpr (not_mem_sourcedBy h.1)
  have ht : (stationGone n s).dir.refresh =
      s.dir.refresh.filter (fun e => decide ((s.record? e.key).bind Record.source ≠ some n)) ++ new := by
    rw [← hkept, ← hrefresh]
    exact setMark_refresh n none (switchSources n s)
  rintro kept rfl
  have hrecord := stationGone_record? True.rule n h
  rw [ht, List.take_left, List.drop_left]
  refine ⟨rfl, fun e he => ?_, hnodup, fun hsn => ?_, fun hsn hlen k hk hg => ?_⟩
  · obtain ⟨-, r, hr, hs, hgap, hsrc, h1, h2, h3⟩ := hreq e he
    have hsw : switched s n r = switchRecord s n r := if_pos hs
    rw [hrecord, hr]
    refine ⟨hs, ?_, ?_, h1, h2, h3⟩
    · exact congrArg some ((congrArg Record.state hsw).trans hgap)
    · exact (congrArg Record.source hsw).trans hsrc
  · rw [hmute (mute_iff.mpr hsn), List.append_nil]
  · obtain ⟨r, hr, hs⟩ := Option.bind_eq_some_iff.mp hk
    have hsw : switched s n r = switchRecord s n r := if_pos hs
    rw [hrecord, hr] at hg
    have hgap : (switchRecord s n r).state = .gapped :=
      (congrArg Record.state hsw).symm.trans (Option.some.inj hg)
    obtain ⟨e, he, hek⟩ := hall (mute_of_ne hsn) (by rw [length_sourcedBy h.1]; exact hlen) k
      (h.1.mem_switchOrder.mpr (by rw [hr]; rfl)) r hr hs hgap
    exact ⟨e, List.mem_append_right _ he, hek⟩

theorem stationGone_left {s : State} (n : Station)
    (h : s.recordsMatchBut (fun _ => True) noKey noKey)
    (hleaves : ∀ k r, s.record? k = some r → r.source = some n → r.alternate = some n →
      s.isPresent n = false) :
    ∀ e ∈ (stationGone n s).dir.records, e.2.source ≠ some n ∧ e.2.alternate ≠ some n := by
  intro e he
  have hmatch := stationGone_records True.rule n h
  have hr := hmatch.1.record_of_mem he
  rw [stationGone_record? True.rule n h] at hr
  obtain ⟨r, hr, e'⟩ := Option.map_eq_some_iff.mp hr
  rw [← e']
  exact switched_leaves (hleaves _ r hr)

/-! ## Home-slot reports -/

theorem isPresent_setPeer (n a : Station) (e : Peer) (s : State) :
    (setPeer n e s).isPresent a =
      if a = n then decide (n ≠ s.own) && decide (e.state = .present) else s.isPresent a := by
  have hp := peer_setPeer n a e s
  unfold State.peer at hp
  unfold State.isPresent
  rw [hp]
  split
  · next e => rw [e]; rfl
  · rfl

/-- The state in which a home-slot report changes the peer entry. -/
def slotReported (n : Station) (s : State) : State :=
  setPeer n (reportPeer (s.lnk.heard.contains n.toNat) (s.peer n)).1
    ((s.modLnk (slotEnded n)).modLnk fun l => { l with heard := NatSet.remove n.toNat l.heard })

theorem slotEnded_heard (n : Station) (l : Lnk) : (slotEnded n l).heard = l.heard := by
  unfold slotEnded
  split
  · rfl
  · exact advanceTo_heard _ _

theorem exec_homeSlotReport {n : Station} {s : State} (hhigh : s.resetHeld = false)
    (hsync : s.lnk.sync ≠ .listen) (hrunning : s.lnk.slotRunning = true) (h0 : n ≠ 0)
    (hown : n ≠ s.own) :
    exec (.homeSlotReport n) s = .next
      (if (reportPeer (s.lnk.heard.contains n.toNat) (s.peer n)).2 then stationGone n (slotReported n s)
        else slotReported n s) := by
  have hreports : reportsHome s n = true := by
    rw [reportsHome, decide_eq_true hsync, hrunning, decide_eq_true h0, decide_eq_true hown]
    rfl
  have hrun := exec_of_running (i := .homeSlotReport n)
    (f := fun s => if reportsHome s n then reportStation n (s.modLnk (slotEnded n)) else s)
    (fun _ => rfl) hhigh
  rw [hrun, hreports, if_pos rfl, reportStation]
  have hheard : (s.modLnk (slotEnded n)).lnk.heard = s.lnk.heard := slotEnded_heard n s.lnk
  simp only [hheard]
  rfl

theorem reportPeer_of_heard (e : Peer) :
    reportPeer true e = ({ e with state := .present, misses := 0 }, false) := rfl

theorem reportPeer_absent {e : Peer} (h : e.state = .absent) :
    reportPeer false e = ({ e with misses := min 8 (e.misses + 1) }, false) := by
  simp only [reportPeer, h, Bool.false_eq_true, if_false, nextMiss]

theorem reportPeer_missed {e : Peer} (h : e.state = .present) (hm : e.misses < 7) :
    reportPeer false e = ({ e with misses := e.misses + 1 }, false) := by
  simp only [reportPeer, h, hm, Bool.false_eq_true, if_false, if_true, nextMiss]
  rw [min_eq_right (by omega)]

theorem reportPeer_silenced {e : Peer} (h : e.state = .present) (hm : 7 ≤ e.misses) :
    reportPeer false e = ({ state := .silent, kind := .unknown, misses := 8 }, true) := by
  simp only [reportPeer, h, not_lt.mpr hm, Bool.false_eq_true, if_false]

theorem reportPeer_silent {e : Peer} (h : e.state = .silent) :
    reportPeer false e = ({ e with misses := 8 }, false) := by
  simp only [reportPeer, h, Bool.false_eq_true, if_false]

/-- A report that raises no silence event changes the station's entry alone. -/
theorem reportPeer_quiet {heard : Bool} {e : Peer}
    (h : heard = true ∨ e.state ≠ .present ∨ e.misses < 7) : (reportPeer heard e).2 = false := by
  cases heard with
  | true => rfl
  | false =>
    cases hs : e.state with
    | absent => rw [reportPeer_absent hs]
    | silent => rw [reportPeer_silent hs]
    | present =>
      obtain h | h | h := h
      · cases h
      · exact absurd hs h
      · rw [reportPeer_missed hs h]

theorem contains_eq_true_iff {l : NatSet} {n : Nat} : l.contains n = true ↔ n ∈ l :=
  List.contains_iff_mem

theorem peer_slotReported (n m : Station) (s : State) :
    (slotReported n s).peer m =
      if m = n then (reportPeer (s.lnk.heard.contains n.toNat) (s.peer n)).1 else s.peer m :=
  peer_setPeer n m _ _

theorem peer_stationGone (n m : Station) (s : State) : (stationGone n s).peer m = s.peer m := by
  unfold State.peer
  rw [stationGone_peers]

/-- Settles O14: one change of the station's entry, and at the eighth miss the silence event. -/
theorem homeSlotReportCounts : Obligations.HomeSlotReportCounts := by
  intro n s hhigh hsync hrunning h0 hown
  have hrun := exec_homeSlotReport hhigh hsync hrunning h0 hown
  generalize hheard : s.lnk.heard.contains n.toNat = heard at hrun
  have hin : heard = true ↔ n.toNat ∈ s.lnk.heard := by rw [← hheard]; exact contains_eq_true_iff
  have hout : n.toNat ∉ s.lnk.heard → heard = false := fun h =>
    Bool.eq_false_iff.mpr fun hh => h (hin.mp hh)
  have hpeer (m : Station) : (slotReported n s).peer m =
      if m = n then (reportPeer heard (s.peer n)).1 else s.peer m := by
    rw [peer_slotReported, hheard]
  have hremoved : n.toNat ∉ (slotReported n s).lnk.heard := fun h =>
    (NatSet.mem_remove.mp h).2 rfl
  cases hgone : (reportPeer heard (s.peer n)).2 with
  | false =>
    rw [hgone, if_neg Bool.false_ne_true] at hrun
    refine ⟨_, hrun, fun h => ?_, fun h hs => ?_, fun h hs hm => ?_, fun h hs hm => ?_,
      fun h hs => ?_, hremoved, fun m hm => ?_, fun _ => ⟨rfl, rfl⟩, rfl⟩
    · rw [hpeer, if_pos rfl, hin.mpr h, reportPeer_of_heard]
    · rw [hpeer, if_pos rfl, hout h, reportPeer_absent hs]
    · rw [hpeer, if_pos rfl, hout h, reportPeer_missed hs hm]
    · rw [hout h, reportPeer_silenced hs hm] at hgone
      cases hgone
    · rw [hpeer, if_pos rfl, hout h, reportPeer_silent hs]
    · rw [hpeer, if_neg hm]
  | true =>
    rw [hgone, if_pos rfl] at hrun
    have hloud : ¬ (heard = true ∨ (s.peer n).state ≠ .present ∨ (s.peer n).misses < 7) := fun h => by
      rw [reportPeer_quiet h] at hgone
      cases hgone
    rw [not_or, not_or, not_not, not_lt] at hloud
    obtain ⟨hquiet, hpresent, hmisses⟩ := hloud
    have hnot : n.toNat ∉ s.lnk.heard := fun h => hquiet (hin.mpr h)
    have hframe := stationGone_frame n (slotReported n s)
    refine ⟨_, hrun, fun h => absurd h hnot, fun _ hs => ?_, fun _ _ hm => ?_, fun h hs hm => ?_,
      fun _ hs => ?_, ?_, fun m hm => ?_, fun h => ?_, ?_⟩
    · rw [hpresent] at hs
      cases hs
    · omega
    · refine ⟨?_, ?_, fun m hm => ?_, stationGone_origin n _⟩
      · rw [peer_stationGone, hpeer, if_pos rfl, hout h, reportPeer_silenced hs hm]
      · rw [stationGone_marks, if_pos rfl]
      · rw [stationGone_marks, if_neg hm]
        rfl
    · rw [hpresent] at hs
      cases hs
    · rw [read_of_frame State.lnk hframe rfl]
      exact hremoved
    · rw [peer_stationGone, hpeer, if_neg hm]
    · obtain h | h | h := h
      · exact absurd h hnot
      · exact absurd hpresent h
      · omega
    · rw [hframe]
      rfl

/-! ## PRESENCE -/

/-- The state after a PRESENCE has set the kind of its origin's entry. -/
def kindSet (n : Station) (k : PeerKind) (s : State) : State := setPeer n { s.peer n with kind := k } s

theorem takePresence_of_change {n : Station} {k : PeerKind} {s : State}
    (hs : (s.peer n).state = .present) (hk : (s.peer n).kind ≠ .unknown) (hne : (s.peer n).kind ≠ k) :
    takePresence n k s = stationGone n (kindSet n k s) := by
  have : kindChanges (s.peer n) k = true := by simp [kindChanges, hs, hk, hne]
  simp only [takePresence, this, if_true]
  rfl

theorem takePresence_of_same {n : Station} {k : PeerKind} {s : State}
    (h : (s.peer n).state ≠ .present ∨ (s.peer n).kind = .unknown ∨ (s.peer n).kind = k) :
    takePresence n k s = kindSet n k s := by
  have : kindChanges (s.peer n) k = false := by
    rw [← Bool.not_eq_true]
    simp only [kindChanges, Bool.and_eq_true, decide_eq_true_eq]
    rintro ⟨⟨h1, h2⟩, h3⟩
    obtain h | h | h := h
    · exact h h1
    · exact h2 h
    · exact h3 h
  simp only [takePresence, this, Bool.false_eq_true, if_false]
  rfl

theorem exec_presence {rx : Rx} {b : PresenceBody} {s : State} (hh : s.hears rx false) :
    exec (.presence rx b) s = .next (takePresence rx.origin (kindOf b.kind) (s.arrived rx)) := by
  rw [exec_of_running (i := .presence rx b)
    (f := receive rx false (takePresence rx.origin (kindOf b.kind))) (fun _ => rfl) hh.1,
    receive_hears _ hh]

theorem peer_takePresence (n : Station) (k : PeerKind) (s : State) (m : Station) :
    (takePresence n k s).peer m = if m = n then { s.peer n with kind := k } else s.peer m := by
  unfold takePresence
  dsimp only
  split
  · rw [peer_stationGone, peer_setPeer]
  · rw [peer_setPeer]

/-- Settles O16: a kind change event where the kind changes, and the mark counts after a MARK. -/
theorem presenceAndMarkTaken : Obligations.PresenceAndMarkTaken := by
  constructor
  · intro rx b s hh
    refine ⟨_, exec_presence hh, ?_⟩
    have hkind : ((takePresence rx.origin (kindOf b.kind) (s.arrived rx)).peer rx.origin) =
        { s.peer rx.origin with kind := kindOf b.kind } := by
      rw [peer_takePresence, if_pos rfl]
      rfl
    refine ⟨hkind, fun m hm => ?_, fun h1 h2 h3 => ?_, fun h => ?_, ?_⟩
    · rw [peer_takePresence, if_neg hm]
      rfl
    · rw [hkind] at h3
      rw [takePresence_of_change (s := s.arrived rx) h1 h2 h3]
      refine ⟨?_, fun m hm => ?_, stationGone_origin _ _⟩
      · rw [stationGone_marks, if_pos rfl]
      · rw [stationGone_marks, if_neg hm]
        rfl
    · rw [hkind] at h
      rw [takePresence_of_same (s := s.arrived rx) h]
      rfl
    · rw [takePresence_frame]
  · intro rx sub key s hh hmatch
    have hrun := exec_of_running (i := .mark rx sub key)
      (f := receive rx false (setMark rx.origin (if sub.getLsbD 0 then some key else none)))
      (fun _ => rfl) hh.1
    rw [receive_hears _ hh] at hrun
    have hm : (s.arrived rx).recordsMatchBut (fun _ => True) noKey noKey :=
      recordsMatchBut_of_match (s := s.arrived rx) hmatch
    refine ⟨_, hrun, ?_, fun m hm => ?_, fun k => setMark_record? _ _ hm k, ?_⟩
    · rw [look_marks_setMark, if_pos rfl]
    · rw [look_marks_setMark, if_neg hm]
      rfl
    · have hp := setMark_ptb rx.origin (if sub.getLsbD 0 then some key else none) (s.arrived rx)
      have hd := setMark_dir rx.origin (if sub.getLsbD 0 then some key else none) (s.arrived rx)
      rw [setMark_frame]
      generalize setMark rx.origin (if sub.getLsbD 0 then some key else none) (s.arrived rx) = t at hp hd ⊢
      rw [hp, hd]
      rfl

/-- What a switched record keeps and loses, as the station's silence or kind change leaves it. -/
theorem switched_described {s u : State} {n : Station} (r : Record) (marks : Nat)
    (hp : ∀ a, a ≠ n → u.isPresent a = s.isPresent a) :
    (({ switched u n r with marks := marks } : Record).items = r.items) ∧
      (r.source ≠ some n → { switched u n r with marks := marks } =
        { r with alternate := if r.alternate = some n then none else r.alternate, marks := marks }) ∧
      (r.source = some n → { switched u n r with marks := marks } =
          { r with
            lastSeq := none, image := none, deadline := none, source := (switched u n r).source
            alternate := (switched u n r).alternate, state := (switched u n r).state, marks := marks } ∧
        ((∃ a, r.alternate = some a ∧ u.isPresent a = true ∧ (switched u n r).source = some a ∧
            (switched u n r).alternate = none ∧ (switched u n r).state = .gapped) ∨
          ((∀ a, r.alternate = some a → a = n ∨ s.isPresent a = false) ∧
            (switched u n r).source = none ∧
            (switched u n r).alternate = (if r.alternate = some n then none else r.alternate) ∧
            (switched u n r).state = .orphaned))) := by
  by_cases hs : r.source = some n
  · have e : switched u n r = switchRecord u n r := if_pos hs
    rw [e]
    obtain ⟨a, ha, hpa, e⟩ | ⟨hna, e⟩ := switchRecord_cases u n r
    · rw [e]
      exact ⟨rfl, fun h => absurd hs h, fun _ => ⟨rfl, .inl ⟨a, ha, hpa, rfl, rfl, rfl⟩⟩⟩
    · rw [e]
      refine ⟨rfl, fun h => absurd hs h, fun _ => ⟨rfl, .inr ⟨fun a ha => ?_, rfl, rfl, rfl⟩⟩⟩
      by_cases han : a = n
      · exact .inl han
      · exact .inr ((hp a han).symm.trans (hna a ha))
  · have e : switched u n r =
        { r with alternate := if r.alternate = some n then none else r.alternate } := by
      unfold switched
      rw [if_neg hs]
      split <;> rfl
    rw [e]
    exact ⟨rfl, fun _ => rfl, fun h => absurd h hs⟩

/-- Settles O15: the switch of the records, then the marks; a silent station is no alternate, and a
station whose kind has changed is none where sources differ from alternates. -/
theorem silenceSwitchesSources : Obligations.SilenceSwitchesSources := by
  constructor
  · intro n s hhigh hsync hrunning h0 hown hheard hpresent hmisses hmatch
    have hcontains : s.lnk.heard.contains n.toNat = false :=
      Bool.eq_false_iff.mpr fun h => hheard (contains_eq_true_iff.mp h)
    have hrun := exec_homeSlotReport hhigh hsync hrunning h0 hown
    rw [hcontains, reportPeer_silenced hpresent hmisses, if_pos rfl] at hrun
    have hsilent : (slotReported n s).isPresent n = false := by
      rw [slotReported, isPresent_setPeer, if_pos rfl, hcontains, reportPeer_silenced hpresent hmisses]
      simp
    have hothers (a : Station) (ha : a ≠ n) : (slotReported n s).isPresent a = s.isPresent a := by
      rw [slotReported, isPresent_setPeer, if_neg ha]
      rfl
    have hm : (slotReported n s).recordsMatchBut (fun _ => True) noKey noKey :=
      State.recordsMatchBut_congr rfl rfl rfl rfl (recordsMatchBut_of_match hmatch)
    refine ⟨_, hrun, stationGone_refreshSwitched n hm,
      stationGone_left n hm fun _ _ _ _ _ => hsilent, fun k r hr => ?_⟩
    obtain ⟨hitems, hother, hsource⟩ := switched_described r
      (markCount (stationGone n (slotReported n s)).ptb k) hothers
    refine ⟨_, (stationGone_record? True.rule n hm k).trans (congrArg (Option.map _) hr), hitems, hother,
      fun hs => ⟨(hsource hs).1, ?_⟩⟩
    refine (hsource hs).2.imp_left fun ⟨a, ha, hp, hrest⟩ => ?_
    have han : a ≠ n := by
      rintro rfl
      rw [hsilent] at hp
      cases hp
    exact ⟨a, ha, han, (hothers a han) ▸ hp, hrest⟩
  · intro rx b s hh hmatch hdiffer hpresent hkind hne
    have hrun := exec_presence (b := b) hh
    rw [takePresence_of_change (s := s.arrived rx) hpresent hkind hne] at hrun
    have hothers (a : Station) (ha : a ≠ rx.origin) :
        (kindSet rx.origin (kindOf b.kind) (s.arrived rx)).isPresent a = s.isPresent a := by
      rw [kindSet, isPresent_setPeer, if_neg ha]
      rfl
    have hm : (kindSet rx.origin (kindOf b.kind) (s.arrived rx)).recordsMatchBut (fun _ => True)
        noKey noKey :=
      State.recordsMatchBut_congr (s := s) rfl rfl rfl rfl (recordsMatchBut_of_match hmatch)
    have hapart (k : Key) (r : Record) (hr : s.record? k = some r) (hs : r.source = some rx.origin) :
        r.alternate ≠ some rx.origin := hdiffer _ (Tab.mem_of_look hr) _ hs
    refine ⟨_, hrun, stationGone_refreshSwitched rx.origin hm,
      stationGone_left rx.origin hm fun k r hr hs ha => absurd ha (hapart k r hr hs), fun k r hr => ?_⟩
    obtain ⟨hitems, hother, hsource⟩ := switched_described r
      (markCount (stationGone rx.origin (kindSet rx.origin (kindOf b.kind) (s.arrived rx))).ptb k)
      hothers
    refine ⟨_, (stationGone_record? True.rule rx.origin hm k).trans (congrArg (Option.map _) hr),
      hitems, hother, fun hs => ⟨(hsource hs).1, ?_⟩⟩
    have han := hapart k r hr hs
    obtain ⟨a, ha, hp, hrest⟩ | ⟨hna, h1, h2, h3⟩ := (hsource hs).2
    · refine .inl ⟨a, ha, ?_, hrest⟩
      rwa [hothers a fun e => han (e ▸ ha)] at hp
    · refine .inr ⟨fun a ha => ?_, h1, h2.trans (if_neg han), h3⟩
      exact (hna a ha).resolve_left fun e => han (e ▸ ha)

end Sys2Proof.Machine

/-! PROOFS. The tick intake (spec/03_tick_intake.md): the source filter, new entries, drops and
merges. -/

namespace Sys2Proof.Machine

/-! ## The source filter -/

/-- A record after a TICK of a station that is its source or becomes it (R39). -/
def adopted (origin : Station) (r : Record) : Record :=
  { r with
    source := some origin
    alternate := if r.source = none ∧ r.alternate = some origin then none else r.alternate }

theorem sourceFilter_adopts {origin : Station} {r : Record}
    (h : r.source = none ∨ r.source = some origin) :
    sourceFilter origin r = (adopted origin r, true) := by
  unfold sourceFilter adopted
  obtain h | h := h
  · simp only [h, true_and]
  · simp only [h, if_true, reduceCtorEq, false_and, if_false]
    rw [← h]

theorem sourceFilter_discards {origin o : Station} {r : Record} (h : r.source = some o)
    (ho : o ≠ origin) : sourceFilter origin r = ({ r with alternate := some origin }, false) := by
  simp only [sourceFilter, h, ho, if_false]

theorem takeTick_adopts {origin : Station} {b : TickBody} {s : State} {r : Record}
    (hr : s.record? b.key = some r) (h : r.source = none ∨ r.source = some origin) :
    takeTick origin b s = routeTick origin b (s.setRecord (adopted origin r)) := by
  simp only [takeTick, hr, sourceFilter_adopts h, if_true]

theorem exec_tick {rx : Rx} {b : TickBody} {s : State} (hh : s.hears rx false) :
    exec (.tick rx b) s = .next (takeTick rx.origin b (s.arrived rx)) := by
  rw [exec_of_running (i := .tick rx b) (f := receive rx false (takeTick rx.origin b)) (fun _ => rfl)
    hh.1, receive_hears _ hh]

theorem recordsMatch_key {s : State} (h : s.recordsMatch) {k : Key} {r : Record}
    (hr : s.record? k = some r) : r.key = k := ((recordsMatchBut_of_match h).1.key hr).1

/-! ## Open entries -/

theorem replaceOpen_eq_map (k : Key) (f : IntakeEntry → IntakeEntry) (q : List IntakeEntry) :
    replaceOpen k f q = q.map fun x => if x.isOpen = true ∧ x.key = k then f x else x := by
  simp only [replaceOpen, Bool.and_eq_true, decide_eq_true_eq]

theorem replaceOpen_of_none {k : Key} {q : List IntakeEntry} (h : openEntry k q = none)
    (f : IntakeEntry → IntakeEntry) : replaceOpen k f q = q := by
  rw [openEntry, List.find?_eq_none] at h
  exact (List.map_congr_left fun x hx => if_neg (h x hx)).trans (List.map_id _)

theorem length_replaceOpen (k : Key) (f : IntakeEntry → IntakeEntry) (q : List IntakeEntry) :
    (replaceOpen k f q).length = q.length := List.length_map _

/-- The queue with the open entry of a key closed. -/
def closeOpen (k : Key) (q : List IntakeEntry) : List IntakeEntry :=
  replaceOpen k (fun e => { e with isOpen := false }) q

/-- A TICK that meets no open entry of its origin needs an entry of its own (R42). -/
theorem routeTick_places {origin : Station} {b : TickBody} {s : State}
    (h : ∀ x, openEntry b.key s.inq = some x → x.origin ≠ origin) :
    routeTick origin b s = placeTick origin b (s.modInq fun _ => closeOpen b.key s.inq) := by
  unfold routeTick
  split
  · next hnone =>
    rw [closeOpen, replaceOpen_of_none hnone]
    rfl
  · next e he => rw [if_neg (h e he)]; rfl

/-! ## Items of a TICK -/

theorem Item.ofCode_isSome (c : Nat) : (Item.ofCode c).isSome = true ↔ c < 12 := by
  constructor
  · intro h
    by_contra hc
    unfold Item.ofCode at h
    split at h
    all_goals first | omega | cases h
  · intro h
    interval_cases c <;> rfl

theorem look_writeItem (items : Tab Received) (e : TickItem) (code : Nat) :
    Tab.look code (writeItem items e) =
      if code < 12 ∧ e.code.toNat = code then some { value := e.value, scale := e.scale }
      else Tab.look code items := by
  have hcode := Item.ofCode_isSome e.code.toNat
  unfold writeItem
  split
  · next h =>
    rw [h] at hcode
    rw [if_neg]
    rintro ⟨hlt, he⟩
    rw [← he] at hlt
    exact Bool.false_ne_true (hcode.mpr hlt)
  · next i h =>
    rw [h] at hcode
    rw [Tab.look_insert]
    have hlt := hcode.mp rfl
    by_cases he : code = e.code.toNat
    · rw [if_pos he, if_pos ⟨he ▸ hlt, he.symm⟩]
    · rw [if_neg he, if_neg fun h => he h.2.symm]

/-- Of the items of one code the last stands (R37, R44). -/
theorem look_foldl_writeItem (l : List TickItem) (items : Tab Received) (code : Nat) :
    Tab.look code (l.foldl writeItem items) =
      if code < 12 then
        match (l.filter fun i => decide (i.code.toNat = code)).getLast? with
        | some i => some { value := i.value, scale := i.scale }
        | none => Tab.look code items
      else Tab.look code items := by
  induction l generalizing items with
  | nil => simp
  | cons e l ih =>
    rw [List.foldl_cons, ih, look_writeItem]
    by_cases hc : code < 12
    · simp only [hc, if_true, true_and]
      by_cases he : e.code.toNat = code
      · simp only [List.filter_cons, he, decide_true, if_true, List.getLast?_cons]
        cases (l.filter fun i => decide (i.code.toNat = code)).getLast? <;> rfl
      · simp only [List.filter_cons, he, decide_false, if_false, Bool.false_eq_true]
    · simp only [hc, if_false, false_and]

theorem look_writeItems_nil (b : TickBody) (code : Nat) :
    Tab.look code (writeItems b []) =
      if code < 12 then
        (((b.items.take (min b.count.toNat 4)).filter fun i => decide (i.code.toNat = code)).getLast?.map
          fun i => { value := i.value, scale := i.scale })
      else none := by
  rw [writeItems, look_foldl_writeItem]
  simp only [tickItems, Tab.look_nil]
  split
  · cases ((b.items.take (min b.count.toNat 4)).filter fun i => decide (i.code.toNat = code)).getLast? <;>
      rfl
  · rfl

/-! ## New entries -/

/-- What the records are after a TICK has passed the source filter. -/
theorem setRecord_adopted {s : State} (hm : s.recordsMatch) {k : Key} {r : Record}
    (hr : s.record? k = some r) (origin : Station) (j : Key) :
    (s.setRecord (adopted origin r)).record? j = if j = k then some (adopted origin r) else s.record? j := by
  rw [State.record?_setRecord]
  have : (adopted origin r).key = k := recordsMatch_key (r := r) hm hr
  rw [this]

/-- Settles O17: the three ways of a TICK through the source filter. -/
theorem tickStartsEntry : Obligations.TickStartsEntry := by
  refine ⟨fun rx b s r hh hm hr hsrc hopen hroom => ?_, fun rx b s hh hnone => ?_,
    fun rx b s r o hh hm hr hsrc ho => ?_⟩
  · have htake : takeTick rx.origin b (s.arrived rx) =
        (((s.arrived rx).setRecord (adopted rx.origin r)).modInq fun _ =>
          closeOpen b.key s.inq ++ [newEntry rx.origin b]).countAccepted := by
      rw [takeTick_adopts (s := s.arrived rx) hr hsrc,
        routeTick_places (s := (s.arrived rx).setRecord (adopted rx.origin r)) hopen, placeTick, if_pos]
      · rfl
      · exact (length_replaceOpen _ _ _).trans_lt hroom
    refine ⟨_, newEntry rx.origin b, exec_tick hh, ?_⟩
    rw [htake]
    refine ⟨?_, fun h => ?_, rfl, rfl, rfl, rfl, rfl, rfl, rfl, rfl, look_writeItems_nil b, ?_,
      fun k hk => ?_, bump_of_ne_allOnes, rfl⟩
    · rw [← replaceOpen_eq_map]
      rfl
    · show closeOpen b.key s.inq ++ _ = _
      rw [closeOpen, replaceOpen_of_none h]
    · exact (setRecord_adopted (s := s.arrived rx) hm hr rx.origin b.key).trans (if_pos rfl)
    · exact (setRecord_adopted (s := s.arrived rx) hm hr rx.origin k).trans (if_neg hk)
  · have htake : takeTick rx.origin b (s.arrived rx) = (s.arrived rx).tallyUnbound := by
      have : (s.arrived rx).record? b.key = none := hnone
      simp only [takeTick, this]
    refine ⟨_, exec_tick hh, ?_⟩
    rw [htake]
    exact ⟨rfl, bumpTally_toNat _⟩
  · have htake : takeTick rx.origin b (s.arrived rx) =
        (s.arrived rx).setRecord { r with alternate := some rx.origin } := by
      have : (s.arrived rx).record? b.key = some r := hr
      simp only [takeTick, this, sourceFilter_discards hsrc ho, Bool.false_eq_true, if_false]
    have hkey : r.key = b.key := recordsMatch_key hm hr
    refine ⟨_, exec_tick hh, ?_⟩
    rw [htake]
    refine ⟨?_, fun k hk => ?_, rfl⟩
    · exact (State.record?_setRecord _ _ _).trans (if_pos hkey.symm)
    · exact (State.record?_setRecord _ _ _).trans (if_neg fun h => hk (h.trans hkey))

/-! ## Drops -/

/-- The record after a drop notice (R64, R65). -/
def droppedRecord (r : Record) : Record :=
  { r with
    state := .gapped
    deadline := none
    image := r.image.map fun i => { i with gapped := true } }

/-- A refresh asked for a key with a source (R69). -/
theorem askRefresh_eq {k : Key} {s : State} {a : Station}
    (h : (s.record? k).bind Record.source = some a) :
    askRefresh k s = s.modDir fun d => { d with refresh := s.refreshAsked k a } := by
  unfold askRefresh State.refreshAsked
  rw [h]
  have hcond : (mute s.straps || s.dir.refresh.any (fun e => decide (e.key = k))
      || decide (refreshRoom ≤ s.dir.refresh.length)) = decide
      (s.straps.sn = 0 ∨ (∃ e ∈ s.dir.refresh, e.key = k) ∨ refreshRoom ≤ s.dir.refresh.length) := by
    rw [Bool.eq_iff_iff]
    simp only [Bool.or_eq_true, List.any_eq_true, decide_eq_true_eq, mute, or_assoc]
  simp only [hcond, decide_eq_true_eq]
  by_cases hc : s.straps.sn = 0 ∨ (∃ e ∈ s.dir.refresh, e.key = k) ∨ refreshRoom ≤ s.dir.refresh.length
  · rw [if_pos hc]
    exact (congrArg (fun l => s.modDir fun d => { d with refresh := l }) (if_pos hc)).symm
  · rw [if_neg hc]
    exact (congrArg (fun l => s.modDir fun d => { d with refresh := l }) (if_neg hc)).symm

theorem dropNotice_of_record {k : Key} {s : State} {r : Record} (h : s.record? k = some r) :
    dropNotice k s = askRefresh k (s.setRecord (droppedRecord r)) := by
  simp only [dropNotice, h]
  rfl

/-- Settles O18: a full queue turns the new entry into a drop notice for the record. -/
theorem tickDroppedWhenFull : Obligations.TickDroppedWhenFull := by
  intro rx b s r hh hm hr hsrc hopen hfull
  have hset := setRecord_adopted (s := s.arrived rx) hm hr rx.origin
  have hkey : (adopted rx.origin r).key = b.key := recordsMatch_key (r := r) hm hr
  have htake : takeTick rx.origin b (s.arrived rx) =
      askRefresh b.key (((((s.arrived rx).setRecord (adopted rx.origin r)).modInq fun _ =>
        closeOpen b.key s.inq).countDropped).setRecord (droppedRecord (adopted rx.origin r))) := by
    rw [takeTick_adopts (s := s.arrived rx) hr hsrc,
      routeTick_places (s := (s.arrived rx).setRecord (adopted rx.origin r)) hopen, placeTick, if_neg]
    · exact dropNotice_of_record ((hset b.key).trans (if_pos rfl))
    · exact not_lt.mpr (hfull.trans_eq (length_replaceOpen _ _ _).symm)
  generalize hu : ((((s.arrived rx).setRecord (adopted rx.origin r)).modInq fun _ =>
    closeOpen b.key s.inq).countDropped).setRecord (droppedRecord (adopted rx.origin r)) = u at htake
  have hrecord (k : Key) : u.record? k =
      if k = b.key then some (droppedRecord (adopted rx.origin r)) else s.record? k := by
    rw [← hu, State.record?_setRecord, show (droppedRecord (adopted rx.origin r)).key = b.key from hkey]
    split
    · rfl
    · next hk => exact (hset k).trans (if_neg hk)
  have hask : askRefresh b.key u = u.modDir fun d => { d with refresh := u.refreshAsked b.key rx.origin } :=
    askRefresh_eq (by rw [hrecord, if_pos rfl]; rfl)
  refine ⟨_, droppedRecord (adopted rx.origin r), exec_tick hh, ?_⟩
  rw [htake, hask]
  refine ⟨?_, fun h => ?_, (hrecord b.key).trans (if_pos rfl), rfl,
    fun k hk => (hrecord k).trans (if_neg hk), ?_, ?_, ?_⟩
  · rw [← replaceOpen_eq_map, ← hu]
    rfl
  · rw [← hu]
    exact replaceOpen_of_none h _
  · rw [← hu]
    rfl
  · rw [← hu]
    exact bump_of_ne_allOnes
  · rw [← hu]
    rfl

/-! ## Merges -/

theorem seqClass_duplicate {d : Nat} : seqClass d = .duplicate ↔ d = 0 ∨ 32768 ≤ d := by
  unfold seqClass
  split_ifs <;> simp <;> omega

theorem seqClass_inSequence {d : Nat} : seqClass d = .inSequence ↔ d = 1 := by
  unfold seqClass
  split_ifs <;> simp <;> omega

/-- The entry that a TICK after an open entry makes of it (R43 to R46). -/
def merged (b : TickBody) (e : IntakeEntry) : IntakeEntry :=
  { e with
    lastSeq := b.seq
    firstSeq := if tickStart b then b.seq else e.firstSeq
    gap := !tickStart b && (e.gap || decide (b.seq - e.lastSeq ≠ 1))
    items := writeItems b (if tickStart b then [] else e.items)
    imageStart := e.imageStart || tickStart b
    imageEnd := e.imageEnd || tickEnd b
    isOpen := e.isOpen && !tickEnd b }

theorem mergeTick_eq (b : TickBody) (e : IntakeEntry) :
    mergeTick b e =
      if b.seq - e.lastSeq = 0 ∨ 32768 ≤ (b.seq - e.lastSeq).toNat then none else some (merged b e) := by
  have hzero : b.seq - e.lastSeq = 0 ↔ (b.seq - e.lastSeq).toNat = 0 := by
    rw [← BitVec.toNat_inj]
    rfl
  have hone : b.seq - e.lastSeq = 1 ↔ (b.seq - e.lastSeq).toNat = 1 := by
    rw [← BitVec.toNat_inj]
    rfl
  have hshape (x : IntakeEntry) (g : Bool) (hx : x = { e with lastSeq := b.seq, gap := g })
      (hg : g = (e.gap || decide (b.seq - e.lastSeq ≠ 1))) :
      finishImage b (mergeItems b (startImage b x)) = merged b e := by
    subst hx hg
    unfold finishImage mergeItems startImage merged
    cases tickStart b <;> cases tickEnd b <;> simp
  unfold mergeTick
  split
  · next h => rw [if_pos (by rw [hzero]; exact seqClass_duplicate.mp h)]
  · next h =>
    have h1 := seqClass_inSequence.mp h
    rw [if_neg (by rw [hzero]; omega), hshape _ e.gap rfl (by simp [hone.mpr h1])]
  · next h =>
    have hd : ¬ (b.seq - e.lastSeq = 0 ∨ 32768 ≤ (b.seq - e.lastSeq).toNat) := fun hc => by
      rw [hzero, ← seqClass_duplicate, h] at hc
      cases hc
    have h1 : b.seq - e.lastSeq ≠ 1 := fun hc => by
      rw [hone, ← seqClass_inSequence, h] at hc
      cases hc
    rw [if_neg hd, hshape _ true rfl (by rw [decide_eq_true h1, Bool.or_true])]

/-- Settles O19: the merge of a TICK into the open entry of its key. -/
theorem tickMerges : Obligations.TickMerges := by
  intro rx b s r e hh hm hr hsrc hopen horigin
  obtain ⟨-, hisOpen, hkey⟩ := openEntry_eq_some hopen
  have hset := setRecord_adopted (s := s.arrived rx) hm hr rx.origin
  have htake : takeTick rx.origin b (s.arrived rx) =
      (mergeTick b e).elim ((s.arrived rx).setRecord (adopted rx.origin r)).tallyDuplicate fun e' =>
        ((((s.arrived rx).setRecord (adopted rx.origin r)).modInq
          (replaceOpen b.key fun _ => e')).countAccepted).countConflated := by
    rw [takeTick_adopts (s := s.arrived rx) hr hsrc, routeTick]
    have : openEntry b.key ((s.arrived rx).setRecord (adopted rx.origin r)).inq = some e := hopen
    simp only [this, horigin, if_true]
    cases mergeTick b e <;> rfl
  by_cases hdup : b.seq - e.lastSeq = 0 ∨ 32768 ≤ (b.seq - e.lastSeq).toNat
  · have hstate : takeTick rx.origin b (s.arrived rx) =
        ((s.arrived rx).setRecord (adopted rx.origin r)).tallyDuplicate := by
      rw [htake, mergeTick_eq, if_pos hdup, Option.elim_none]
    refine ⟨_, exec_tick hh, ?_⟩
    rw [hstate]
    exact ⟨(if_pos hdup).mpr ⟨rfl, bumpTally_toNat _⟩, (hset b.key).trans (if_pos rfl),
      fun k hk => (hset k).trans (if_neg hk), rfl⟩
  · have hstate : takeTick rx.origin b (s.arrived rx) =
        ((((s.arrived rx).setRecord (adopted rx.origin r)).modInq
          (replaceOpen b.key fun _ => merged b e)).countAccepted).countConflated := by
      rw [htake, mergeTick_eq, if_neg hdup, Option.elim_some]
    refine ⟨_, exec_tick hh, ?_⟩
    rw [hstate]
    refine ⟨(if_neg hdup).mpr ⟨merged b e, ?_, hkey, horigin, rfl, rfl, rfl, rfl, rfl, ?_, ?_,
      bump_of_ne_allOnes, bump_of_ne_allOnes⟩, (hset b.key).trans (if_pos rfl),
      fun k hk => (hset k).trans (if_neg hk), rfl⟩
    · rw [← replaceOpen_eq_map]
      rfl
    · show (e.isOpen && !tickEnd b) = _
      rw [hisOpen]
      rfl
    · intro code hc
      show Tab.look code (writeItems b _) = _
      rw [writeItems, look_foldl_writeItem, if_pos hc]
      have hempty : Tab.look code (if tickStart b then [] else e.items) =
          if b.sub.getLsbD 0 then none else Tab.look code e.items := by
        unfold tickStart
        split <;> rfl
      rw [hempty]
      rfl

end Sys2Proof.Machine

/-! PROOFS. Reset, the value arithmetic and the field text (spec/01_desk_link.md section 1.4,
spec/05_value_arithmetic_and_formatting.md). -/

namespace Sys2Proof.Machine

/-! ## Reset -/

theorem window_nil {s : State} (h : s.win = []) (w : Nat) : s.window w = resetWindow := by
  rw [State.window, h]
  rfl

theorem released_windowsSound (st : Straps) (low : Bool) (p : List Instr) :
    (State.released st low p).windowsSound :=
  ⟨⟨rfl, fun _ h => absurd h List.not_mem_nil, fun _ h => absurd h List.not_mem_nil⟩,
    fun _ _ _ ⟨hstate, _⟩ _ => absurd rfl hstate⟩

theorem released_recordsMatch (st : Straps) (low : Bool) (p : List Instr) :
    (State.released st low p).recordsMatch := by
  refine ⟨rfl, rfl, rfl, rfl, fun _ h => absurd h List.not_mem_nil, fun k => ?_⟩
  rw [show (State.released st low p).record? k = none from rfl,
    show refCount (State.released st low p).lay k = 0 from rfl]
  simp

theorem forall_mem_nil {α : Type} {P : α → Prop} : ∀ e ∈ ([] : List α), P e :=
  fun _ h => absurd h List.not_mem_nil

theorem released_buffersSound (st : Straps) (low : Bool) (p : List Instr) :
    (State.released st low p).buffersSound :=
  ⟨⟨Nat.zero_le _, Nat.zero_le _, Nat.zero_le _, Nat.zero_le _, Nat.zero_le _⟩, List.nodup_nil,
    List.nodup_nil, rfl, rfl, forall_mem_nil⟩

theorem released_indicesKnown (st : Straps) (low : Bool) (p : List Instr) :
    (State.released st low p).indicesKnown :=
  ⟨forall_mem_nil, forall_mem_nil, forall_mem_nil, forall_mem_nil, fun _ h => (nomatch h),
    forall_mem_nil, fun _ _ _ h => (nomatch h)⟩

theorem released_storesSound (st : Straps) (low : Bool) (p : List Instr) :
    (State.released st low p).storesSound := by
  refine ⟨?_, ?_, ?_, ?_, ?_, ?_, released_indicesKnown st low p, forall_mem_nil, forall_mem_nil⟩
  all_goals simp [State.released, resetPnt, resetCrw, defaultLay, labelChars]

theorem released_flashesListed (st : Straps) (low : Bool) (p : List Instr) :
    (State.released st low p).flashesListed :=
  ⟨List.nodup_nil, fun _ => ⟨fun h => absurd rfl h, nofun⟩⟩

theorem released_directorySound (st : Straps) (low : Bool) (p : List Instr) :
    (State.released st low p).directorySound :=
  ⟨released_recordsMatch st low p, forall_mem_nil, forall_mem_nil, fun _ => ⟨Nat.zero_le _, nofun, nofun⟩⟩

/-- Settles O4: every invariant speaks of tables and lists that reset leaves empty. -/
theorem resetIsSound : Obligations.ResetIsSound :=
  ⟨released_buffersSound _ _ _, released_storesSound _ _ _, released_windowsSound _ _ _,
    released_flashesListed _ _ _, released_directorySound _ _ _⟩

theorem length_resetCrawlRow (st : Straps) :
    (resetCrawlRow st).length = if (role st).hasRow then cols st else 0 := by
  unfold resetCrawlRow
  split
  · exact List.length_replicate
  · rfl

theorem mem_resetCrawlRow {st : Straps} {c : CrawlCell} (h : c ∈ resetCrawlRow st) :
    c = { glyph := 0x20, fg := 15, bg := 0, blink := false } := by
  unfold resetCrawlRow at h
  split at h
  · exact List.eq_of_mem_replicate h
  · cases h

/-- Settles O3: assertion frees the two lines, and release is the state `State.released`. -/
theorem resetLeavesValues : Obligations.ResetLeavesValues := by
  refine ⟨fun s => ⟨_, rfl, rfl, rfl, rfl, rfl, rfl⟩, fun straps low s hheld =>
    ⟨State.released straps low s.pending, ?_, rfl, rfl, rfl, rfl, rfl, rfl, rfl, rfl, rfl, rfl, rfl,
      fun _ => rfl, rfl, rfl, rfl, rfl, rfl, rfl, rfl, fun _ => rfl, rfl, rfl, fun _ => rfl,
      fun _ _ => rfl, fun _ => rfl, rfl, rfl, rfl, rfl, fun _ => rfl,
      fun _ => ⟨rfl, rfl, rfl, rfl, rfl, rfl, rfl, rfl, rfl, rfl⟩, rfl, rfl, rfl, rfl, rfl, rfl,
      length_resetCrawlRow straps, fun _ => mem_resetCrawlRow, fun _ _ => rfl, rfl, rfl, rfl, rfl, rfl,
      rfl, rfl, rfl, rfl, rfl⟩⟩
  show Host.Outcome.next _ = _
  rw [if_pos hheld]

/-! ## Rounding -/

/-- The quotient of magnitudes that rounding takes (R76). -/
def roundedNat (a d : Nat) : Nat := (2 * a + d) / (2 * d)

theorem roundDiv_eq (n : Int) (d : Nat) :
    roundDiv n d = if n < 0 then -(roundedNat n.natAbs d : Int) else roundedNat n.natAbs d := rfl

theorem roundedNat_bounds {d : Nat} (hd : 0 < d) (a : Nat) :
    2 * (roundedNat a d * d) ≤ 2 * a + d ∧ 2 * a < 2 * (roundedNat a d * d) + d := by
  have hle := Nat.div_mul_le_self (2 * a + d) (2 * d)
  have hlt := Nat.lt_div_mul_add (a := 2 * a + d) (b := 2 * d) (by omega)
  have hmul : (2 * a + d) / (2 * d) * (2 * d) = 2 * (roundedNat a d * d) := by
    rw [roundedNat]
    ring
  omega

theorem natAbs_roundDiv (n : Int) (d : Nat) : (roundDiv n d).natAbs = roundedNat n.natAbs d := by
  rw [roundDiv_eq]
  split <;> omega

/-- The error of a rounded quotient is that of the magnitudes. -/
theorem abs_sub_roundDiv (n : Int) (d : Nat) :
    |n - roundDiv n d * d| = |(n.natAbs : Int) - (roundedNat n.natAbs d * d : Nat)| := by
  rw [roundDiv_eq]
  push_cast
  split
  · next h =>
    rw [← abs_neg, abs_of_neg h]
    congr 1
    ring
  · next h => rw [abs_of_nonneg (not_lt.mp h)]

theorem roundDiv_neg {d : Nat} (hd : 0 < d) (n : Int) : roundDiv (-n) d = -roundDiv n d := by
  have hzero : roundedNat 0 d = 0 := by
    rw [roundedNat, Nat.div_eq_zero_iff]
    omega
  rw [roundDiv_eq, roundDiv_eq, Int.natAbs_neg]
  rcases lt_trichotomy n 0 with h | rfl | h
  · rw [if_neg (by omega), if_pos h, neg_neg]
  · simp [hzero]
  · rw [if_pos (by omega), if_neg (by omega)]

/-- Settles O23: the quotient is floor(|n| / d + 1/2) with the sign of n. -/
theorem roundsHalfAway : Obligations.RoundsHalfAway := by
  intro n d hd
  obtain ⟨hle, hlt⟩ := roundedNat_bounds hd n.natAbs
  refine ⟨?_, fun htie => ?_, roundDiv_neg hd n⟩
  · rw [abs_sub_roundDiv, Int.abs_eq_natAbs]
    omega
  · rw [abs_sub_roundDiv, Int.abs_eq_natAbs] at htie
    have hmag : |roundDiv n d * (d : Int)| = (roundedNat n.natAbs d * d : Nat) := by
      rw [Int.abs_eq_natAbs, Int.natAbs_mul, natAbs_roundDiv, Int.natAbs_natCast]
    rw [hmag, Int.abs_eq_natAbs n]
    omega

/-! ## The width of a field text -/

@[simp] theorem length_fill (c : Byte) (n : Nat) : (fill c n).length = n := List.length_replicate

theorem length_padTo (right : Bool) {w : Nat} {t : Text} (h : t.length ≤ w) :
    (padTo right w t).length = w := by
  unfold padTo
  cases right <;> simp <;> omega

theorem length_placeOrFill (right : Bool) (w : Nat) (t : Text) :
    (placeOrFill right w t).length = w := by
  unfold placeOrFill
  split
  · next h => exact length_padTo right h
  · exact length_fill _ _

theorem length_decField (x : Exact) (d w : Nat) (right plus grouping : Bool) :
    (decField x d w right plus grouping).length = w := by
  unfold decField
  split
  · next t h =>
    have hfit : t.length ≤ w := by simpa using List.find?_some h
    exact length_padTo right hfit
  · exact length_fill _ _

theorem length_condText (labels : Tab Text) (c w : Nat) (right : Bool) :
    (condText labels c w right).length = w := by
  unfold condText
  split
  · exact length_placeOrFill _ _ _
  · rw [List.length_take, List.length_append, length_fill]
    omega

theorem length_presentText (f : Field) (labels : Tab Text) (items : Tab Stored) (c : Content) :
    (presentText f labels items c).length = f.width := by
  unfold presentText
  split
  · exact length_decField _ _ _ _ _ _
  · exact length_placeOrFill _ _ _
  · exact length_placeOrFill _ _ _
  · exact length_placeOrFill _ _ _
  · exact length_placeOrFill _ _ _
  · exact length_condText _ _ _ _

/-- Settles O24: each way of writing a value pads, cuts or fills to the width. -/
theorem fieldTextFillsWidth : Obligations.FieldTextFillsWidth := by
  intro f labels items
  unfold fieldText
  split
  · exact length_fill _ _
  · exact length_fill _ _
  · exact length_presentText _ _ _ _

/-! ## Comparison and difference -/

/-- Two mantissas aligned to the finer scale, and the same two aligned crosswise, differ by the factor
that the coarser scale gives. -/
theorem alignTo_mul (a b : Nat) (m : Int) :
    alignTo (max a b) a m * 10 ^ min a b = m * 10 ^ b := by
  rw [alignTo, mul_assoc, ← pow_add]
  congr 2
  omega

/-- The direction that the order of two integers gives (R81). -/
def orderOf (x y : Int) : Direction := if x < y then .up else if y < x then .down else .equal

theorem direction_of_comparable {a b : Content} {x y : Int} (h : comparable a b = some (x, y)) :
    direction (some (.present a)) (.present b) = orderOf x y := by
  simp only [direction, h]
  rfl

theorem orderOf_iff (x y : Int) :
    (orderOf x y = .up ↔ x < y) ∧ (orderOf x y = .down ↔ y < x) ∧ (orderOf x y = .equal ↔ x = y) := by
  unfold orderOf
  rcases lt_trichotomy x y with h | rfl | h
  · simp [h, h.le, h.ne]
  · simp
  · simp [h, h.ne', h.not_gt]

/-- The order of two aligned mantissas is that of the numbers they stand for. -/
theorem orderOf_alignTo (m n : Int) (a b : Nat) :
    orderOf (alignTo (max a b) a m) (alignTo (max a b) b n) = orderOf (m * 10 ^ b) (n * 10 ^ a) := by
  have hpos : (0 : Int) < 10 ^ min a b := by positivity
  have hm := alignTo_mul a b m
  have hn : alignTo (max a b) b n * 10 ^ min a b = n * 10 ^ a := by
    rw [max_comm, min_comm]
    exact alignTo_mul b a n
  unfold orderOf
  rw [← hm, ← hn]
  simp only [mul_lt_mul_iff_left₀ hpos]

theorem direction_of_kindCode {a b : Content} (h : a.kindCode ≠ b.kindCode) :
    direction (some (.present a)) (.present b) = .none := by
  have : comparable a b = none := by
    cases a <;> cases b <;> first | rfl | exact absurd rfl h
  simp only [direction, this]

theorem direction_of_numbers {kind : Nat → Content} (h : kind = .size ∨ kind = .seconds ∨ kind = .code)
    (m n : Nat) :
    direction (some (.present (kind m))) (.present (kind n)) =
      if m < n then .up else if n < m then .down else .equal := by
  have hc : comparable (kind m) (kind n) = some ((m : Int), (n : Int)) := by
    obtain rfl | rfl | rfl := h <;> rfl
  rw [direction_of_comparable hc, orderOf]
  simp only [Nat.cast_lt]

theorem difference_of_prices {items : Tab Stored} {a b : Item} {ma mb : Int} {sa sb : Nat}
    (ha : Tab.look a.code items = some { content := .price ma sa, clamped := false })
    (hb : Tab.look b.code items = some { content := .price mb sb, clamped := false }) :
    difference items a b =
      fitPrice (alignTo (max sa sb) sa ma - alignTo (max sa sb) sb mb) (max sa sb) := by
  simp only [difference, ha, hb]
  rfl

/-- Settles O25: prices and percentages compare by their aligned mantissas, the other kinds by their
numbers, and two kinds not at all. -/
theorem pricesCompareAndSubtract : Obligations.PricesCompareAndSubtract := by
  refine ⟨⟨fun m n a b => ?_, fun m n a b => ?_, fun kind m n h => direction_of_numbers h m n,
    fun a b => direction_of_kindCode, fun c v => ?_⟩, fun items a b ma mb sa sb ha hb hfit => ?_,
    fun items a b h => ?_⟩
  · rw [direction_of_comparable (a := .price m a) (b := .price n b) rfl, orderOf_alignTo]
    exact orderOf_iff _ _
  · rw [direction_of_comparable (a := .percentage m a) (b := .percentage n b) rfl, orderOf_alignTo]
    exact orderOf_iff _ _
  · cases v <;> exact ⟨rfl, rfl, rfl, rfl, rfl⟩
  · rw [difference_of_prices ha hb, fitPrice, if_pos]
    · rfl
    · rw [Int.abs_eq_natAbs] at hfit
      exact Int.ofNat_le.mp hfit
  · unfold difference
    obtain h | h := h
    · rw [h]
    · rw [h]
      cases Tab.look a.code items <;> rfl

end Sys2Proof.Machine

/-! PROOFS. The commands and records that pass the origin check: their refusals, the small tables, and
the window commands that compose nothing (spec/06_layout_records.md, spec/07 section 7.6, spec/08
section 8.4). -/

namespace Sys2Proof.Machine

/-! ## Checked parcels -/

/-- A COMMAND of a station that the layout origin allows is taken where its parcel has arrived. -/
theorem exec_command {i : Instr} {rx : Rx} {code : Nibble} {act : State → State} {s : State}
    (h : ∀ u, exec i u = running (commandParcel rx code act) u) (hh : s.hears rx true)
    (ha : s.allows rx.origin) : exec i s = .next (act (s.arrived rx)) := by
  rw [h, running_of_high hh.1, commandParcel, receive_hears _ hh,
    commandCheck_allows (s := s.arrived rx) _ _ ha]

/-- A LAYOUT record of such a station is taken where its parcel has claimed the screen. -/
theorem exec_layout {i : Instr} {rx : Rx} {kind : Nibble} {act : State → State} {s : State}
    (h : ∀ u, exec i u = running (layoutParcel rx kind act) u) (hh : s.hears rx true)
    (ha : s.allows rx.origin) : exec i s = .next (act ((s.arrived rx).claimed rx.origin)) := by
  rw [h, running_of_high hh.1, layoutParcel, receive_hears _ hh,
    layoutCheck_allows (s := s.arrived rx) _ _ ha]

theorem onWindow_of_le {window : Byte} (h : window.toNat ≤ 7) (rx : Rx) (code : Nibble)
    (act : Nat → State → State) (s : State) :
    onWindow rx code window act s = act window.toNat s := by
  simp only [onWindow, readWindow, readBelow, Nat.lt_succ_of_le h, if_true]

theorem onWindow_of_gt {window : Byte} (h : 7 < window.toNat) (rx : Rx) (code : Nibble)
    (act : Nat → State → State) (s : State) :
    onWindow rx code window act s = s.refuse 2 code .range rx.origin := by
  have : readWindow window = none := if_neg (not_lt.mpr h)
  simp only [onWindow, this]
  rfl

/-! ## Refusals -/

theorem State.refuse_eq {reason : Reason} (h : reason ≠ .foreign) (kind code : Nibble)
    (origin : Station) (s : State) :
    s.refuse kind code reason origin =
      { s with sts := s.sts.refused kind code reason origin (bump s.sts.counters.refusals) } := by
  simp only [State.refuse, State.modSts, h, decide_false, Bool.or_false]
  rfl

/-- A command refused where its parcel has arrived, and nothing else changed (R94, R203). -/
def Refused (i : Instr) (kind code : Nibble) (reason : Reason) (origin : Station) (s u : State) : Prop :=
  ∃ t, exec i s = .next t ∧
    t = { u with sts := u.sts.refused kind code reason origin t.sts.counters.refusals } ∧
    (u.sts.counters.refusals ≠ BitVec.allOnes 32 →
      t.sts.counters.refusals = u.sts.counters.refusals + 1)

theorem Refused.of_exec {i : Instr} {kind code : Nibble} {reason : Reason} {origin : Station}
    {s u : State} (h : exec i s = .next (u.refuse kind code reason origin)) (hr : reason ≠ .foreign) :
    Refused i kind code reason origin s u := by
  rw [State.refuse_eq hr] at h
  exact ⟨_, h, rfl, bump_of_ne_allOnes⟩

/-! ## Reading operands -/

theorem readBelow_of_lt {n : Nat} {b : Byte} (h : b.toNat < n) : readBelow n b = some b.toNat := if_pos h

theorem readBelow_of_ge {n : Nat} {b : Byte} (h : n ≤ b.toNat) : readBelow n b = none :=
  if_neg (not_lt.mpr h)

theorem readWindow_of_le {b : Byte} (h : b.toNat ≤ 7) : readWindow b = some b.toNat :=
  readBelow_of_lt (Nat.lt_succ_of_le h)

theorem readWindow_of_gt {b : Byte} (h : 7 < b.toNat) : readWindow b = none := readBelow_of_ge h

theorem readPageOrNone_of_gt {b : Byte} (h : 31 < b.toNat) (hne : b ≠ 255) : readPageOrNone b = none := by
  rw [readPageOrNone, if_neg (by omega), if_neg hne]

theorem readMode_of_gt {b : Byte} (h : 4 < b.toNat) : readMode b = none := by
  unfold readMode
  repeat' (split; · next hb => rw [hb] at h; exact absurd h (by decide))
  rfl

theorem readOverride_of_gt {b : Byte} (h : 2 < b.toNat) : readOverride b = none := by
  unfold readOverride
  repeat' (split; · next hb => rw [hb] at h; exact absurd h (by decide))
  rfl

theorem readOverride_of_le {b : Byte} (h : b.toNat ≤ 2) :
    readOverride b = some (if b = 0 then .none else if b = 1 then .dash else .test) := by
  have hb : b = 0 ∨ b = 1 ∨ b = 2 := by bv_omega
  obtain rfl | rfl | rfl := hb <;> rfl

theorem readField_of_bad {columns : Nat} {e : FieldEntry}
    (h : columns ≤ e.column.toNat ∨ e.item = 15 ∨ 5 < e.format.toNat ∨ e.subst = 3) :
    readField columns e = none := by
  have hformat (hf : 5 < e.format.toNat) : readFormat e.format e.param = none := by
    unfold readFormat
    split <;> first | omega | rfl
  unfold readField
  split
  · rfl
  · next hcol =>
    split
    · next sel fmt sub hsel hfmt hsub =>
      obtain h | h | h | h := h
      · exact absurd h hcol
      · rw [h] at hsel
        cases hsel
      · rw [hformat h] at hfmt
        cases hfmt
      · rw [h] at hsub
        cases hsub
    · rfl

theorem readEntry_of_bad {columns : Nat} {e : FieldEntry} (hw : e.width ≠ 0)
    (h : columns ≤ e.column.toNat ∨ e.item = 15 ∨ 5 < e.format.toNat ∨ e.subst = 3) :
    readEntry columns e = none := by
  rw [readEntry, if_neg hw, readField_of_bad h]
  rfl

/-- As many entries are read as the record counts. -/
theorem length_of_readEntries {columns : Nat} {r : FieldRecord} {l : List EntryRead}
    (h : readEntries columns r = some l) : l.length = r.count.toNat := by
  unfold readEntries at h
  split at h
  · next hc =>
    obtain ⟨a, -, rfl⟩ := Option.map_eq_some_iff.mp h
    rw [hc]
    rfl
  · split at h
    · next hc =>
      obtain ⟨a, -, h⟩ := Option.bind_eq_some_iff.mp h
      obtain ⟨b, -, rfl⟩ := Option.map_eq_some_iff.mp h
      rw [hc]
      rfl
    · cases h

theorem readEntries_of_bad {columns : Nat} {r : FieldRecord}
    (h : r.count ≠ 1 ∧ r.count ≠ 2 ∨
      ∃ e, (e = r.first ∨ r.count = 2 ∧ e = r.second) ∧ readEntry columns e = none) :
    readEntries columns r = none := by
  unfold readEntries
  obtain ⟨h1, h2⟩ | ⟨e, rfl | ⟨h2, rfl⟩, he⟩ := h
  · rw [if_neg h1, if_neg h2]
  · rw [he]
    split <;> [rfl; (split <;> rfl)]
  · rw [if_neg (by rw [h2]; decide), if_pos h2, he]
    cases readEntry columns r.first <;> rfl

/-! ## Refused records and commands -/

theorem takeField_of_range {origin : Station} {r : FieldRecord} {s : State}
    (h : readEntries (cols s.straps) r = none ∨ 512 < fieldStart s.lay r + r.count.toNat) :
    takeField origin r s = s.refuse 7 1 .range origin := by
  unfold takeField
  split
  · rfl
  · next l hl =>
    obtain h | h := h
    · rw [hl] at h
      cases h
    · rw [if_pos (by rw [length_of_readEntries hl]; exact h)]
      rfl

theorem takeField_of_overlap {origin : Station} {r : FieldRecord} {s : State} {l : List EntryRead}
    (hl : readEntries (cols s.straps) r = some l) (hroom : fieldStart s.lay r + l.length ≤ 512)
    (h : overlaps s.lay.fields (fieldRun (fieldStart s.lay r) l) = true) :
    takeField origin r s = s.refuse 7 1 .overlap origin := by
  simp only [takeField, hl]
  rw [if_neg (not_lt.mpr hroom), if_pos h]
  rfl

theorem takeField_of_full {origin : Station} {r : FieldRecord} {s : State} {l : List EntryRead}
    (hl : readEntries (cols s.straps) r = some l) (hroom : fieldStart s.lay r + l.length ≤ 512)
    (ho : overlaps s.lay.fields (fieldRun (fieldStart s.lay r) l) = false)
    (h : 256 < (namedKeys { s.lay with
      fields := (fieldRun (fieldStart s.lay r) l).foldl changeTable s.lay.fields }).length) :
    takeField origin r s = s.refuse 7 1 .full origin := by
  simp only [takeField, hl]
  rw [if_neg (not_lt.mpr hroom), if_neg (by rw [ho]; exact Bool.false_ne_true),
    if_pos (show overFull _ = true from decide_eq_true h)]
  rfl

end Sys2Proof.Machine

/-! PROOFS. The refusals, the small tables, and the window commands that compose nothing, settled
(spec/06_layout_records.md, spec/07 section 7.6, spec/08 section 8.4). -/

namespace Sys2Proof.Machine

/-! ## Refused records and commands -/

theorem takeLabel_of_range {origin : Station} {r : LabelRecord} {s : State}
    (h : readLabel (cols s.straps) r = none) : takeLabel origin r s = s.refuse 7 2 .range origin := by
  simp only [takeLabel, h]
  rfl

theorem readLabel_of_write {columns : Nat} {r : LabelRecord} (hrun : r.run.toNat ≤ 255)
    (hlen : r.length ≠ 0) (hset : r.charset.toNat ≤ 1) (hcol : r.column.toNat < columns) :
    readLabel columns r = some (r.run.toNat, some
      { page := r.page.toNat, row := r.row.toNat, column := r.column.toNat
        glyphs := (r.chars.take (clampRun 20 columns r.column.toNat r.length.toNat)).map
          fun c => BitVec.ofNat 1 r.charset.toNat ++ c
        fg := r.fg, bg := r.bg, blink := r.blink }) := by
  rw [readLabel, if_neg (not_lt.mpr hrun), if_neg hlen, if_neg (by omega)]

theorem labelChars_writeRunAt (i : Nat) (r : LabelRun) (t : Tab LabelRun) :
    labelChars (writeRunAt i (some r) t) = labelChars (Tab.erase i t) + r.glyphs.length := by
  have hplace (l : Tab LabelRun) :
      labelChars (Tab.place i r l) = labelChars l + r.glyphs.length := by
    unfold labelChars
    induction l with
    | nil => exact Nat.add_comm _ _
    | cons e l ih =>
      unfold Tab.place
      split
      · simp only [List.map_cons, List.sum_cons]
        omega
      · simp only [List.map_cons, List.sum_cons]
        omega
  exact hplace _

theorem length_clampRun {columns column w : Nat} {chars : Text} (h : chars.length = 20) :
    (chars.take (clampRun 20 columns column w)).length = min (min w 20) (columns - column) := by
  rw [List.length_take, h, clampRun]
  omega

/-- Each test that a block makes of its record or command, and the refusal it ends in. -/
theorem refused_of_refuses {i : Instr} {rx : Rx} {kind code : Nibble} {reason : Reason} {s : State}
    (hi : i.checked = some (rx, kind, code)) (hh : s.hears rx true) (ha : s.allows rx.origin)
    (h : s.Refuses i reason) :
    Refused i kind code reason rx.origin s
      (if kind = 7 then (s.arrived rx).claimed rx.origin else s.arrived rx) := by
  have hlayout {i : Instr} {code : Nibble} {act : State → State} {reason : Reason}
      (hexec : ∀ u, exec i u = running (layoutParcel rx code act) u) (hr : reason ≠ .foreign)
      (hact : act ((s.arrived rx).claimed rx.origin) =
        ((s.arrived rx).claimed rx.origin).refuse 7 code reason rx.origin) :
      Refused i 7 code reason rx.origin s
        (if (7 : Nibble) = 7 then (s.arrived rx).claimed rx.origin else s.arrived rx) :=
    Refused.of_exec ((exec_layout hexec hh ha).trans (congrArg _ hact)) hr
  have hcommand {i : Instr} {code : Nibble} {act : State → State} {reason : Reason}
      (hexec : ∀ u, exec i u = running (commandParcel rx code act) u) (hr : reason ≠ .foreign)
      (hact : act (s.arrived rx) = (s.arrived rx).refuse 2 code reason rx.origin) :
      Refused i 2 code reason rx.origin s
        (if (2 : Nibble) = 7 then (s.arrived rx).claimed rx.origin else s.arrived rx) :=
    Refused.of_exec ((exec_command hexec hh ha).trans (congrArg _ hact)) hr
  cases h with
  | labelRun rx r hrun =>
    cases hi
    exact hlayout (fun _ => rfl) nofun (takeLabel_of_range (if_pos hrun))
  | labelPlace rx r hlen hbad =>
    cases hi
    refine hlayout (fun _ => rfl) nofun (takeLabel_of_range ?_)
    unfold readLabel
    split
    · rfl
    · exact if_pos hbad
  | labelRoom rx r hrun hlen hset hcol hchars hroom =>
    cases hi
    refine hlayout (fun _ => rfl) nofun ?_
    show takeLabel _ _ _ = _
    unfold takeLabel
    rw [show readLabel (cols ((s.arrived rx).claimed rx.origin).straps) r = _ from
      readLabel_of_write hrun hlen hset hcol]
    refine if_pos ?_
    rw [labelChars_writeRunAt, List.length_map, length_clampRun hchars]
    exact hroom
  | windowIndex rx r hw =>
    cases hi
    refine hlayout (fun _ => rfl) nofun ?_
    simp only [takeWindow, readWindow_of_gt hw]
    rfl
  | windowBand rx r hheight hband =>
    cases hi
    refine hlayout (fun _ => rfl) nofun ?_
    show takeWindow _ _ _ = _
    unfold takeWindow
    split
    · rfl
    · next w hw =>
      obtain ⟨rfl, -⟩ := readWindow_eq_some hw
      rw [if_neg hheight]
      have hread : readBand ((s.arrived rx).claimed rx.origin) r.window.toNat r = none := by
        unfold readBand
        split
        · rfl
        · next hfree =>
          split
          · rfl
          · next htaken =>
            obtain h | ⟨h, hne⟩ | ⟨e, he, hne, h⟩ := hband
            · exact absurd h hfree
            · exact readPageOrNone_of_gt h hne
            · refine absurd ?_ htaken
              exact List.any_eq_true.mpr ⟨e, he, by simpa [sharesRow] using ⟨hne, h⟩⟩
      simp only [hread]
      rfl
  | policy rx r hbad =>
    cases hi
    refine hlayout (fun _ => rfl) nofun ?_
    have hread : readPolicy r = none := by
      unfold readPolicy
      obtain h | h := hbad
      · rw [readWindow_of_gt h]
      · rw [readMode_of_gt h]
        cases readWindow r.policy <;> rfl
    simp only [takePolicy, hread]
    rfl
  | palette rx r hbad =>
    cases hi
    refine hlayout (fun _ => rfl) nofun ?_
    simp only [takePalette, readBelow_of_ge (Nat.succ_le_of_lt hbad)]
    rfl
  | condLabel rx r hbad =>
    cases hi
    refine hlayout (fun _ => rfl) nofun ?_
    simp only [takeCondLabel, readBelow_of_ge (Nat.succ_le_of_lt hbad)]
    rfl
  | carousel rx r hbad =>
    cases hi
    refine hlayout (fun _ => rfl) nofun ?_
    have hread : readStep r = none := by
      unfold readStep
      obtain h | h | ⟨h, hne⟩ := hbad
      · rw [readWindow_of_gt h]
      · rw [readBelow_of_ge (Nat.succ_le_of_lt h)]
        cases readWindow r.window <;> rfl
      · rw [readPageOrNone_of_gt h hne]
        cases readWindow r.window <;> cases readBelow 16 r.step <;> rfl
    simp only [takeCarousel, hread]
    rfl
  | progEntry rx r hbad =>
    cases hi
    refine hlayout (fun _ => rfl) nofun ?_
    simp only [takeProg, readProg, readBelow_of_ge (Nat.succ_le_of_lt hbad)]
    rfl
  | progRoom rx r hentry hroom =>
    cases hi
    refine hlayout (fun _ => rfl) nofun ?_
    simp only [takeProg, readProg, readBelow_of_lt (Nat.lt_succ_of_le hentry)]
    exact if_pos (decide_eq_true hroom)
  | showPage rx window page hbad =>
    cases hi
    refine hcommand (fun _ => rfl) nofun ?_
    show takeShow _ _ _ _ = _
    unfold takeShow
    split
    · next w p hw hp =>
      obtain ⟨rfl, hlt⟩ := readWindow_eq_some hw
      have hpage : page.toNat < 32 := by
        unfold readPage readBelow at hp
        split at hp
        · assumption
        · cases hp
      have hheight : (s.window window.toNat).height = 0 := by omega
      refine if_pos ?_
      show (!decide (0 < (s.window window.toNat).height)) = true
      rw [hheight]
      rfl
    · rfl
    · rfl
  | release rx window hbad =>
    cases hi
    exact hcommand (fun _ => rfl) nofun (onWindow_of_gt hbad _ _ _ _)
  | run rx window hbad =>
    cases hi
    refine hcommand (fun _ => rfl) nofun ?_
    obtain hbad | hheight := hbad
    · exact onWindow_of_gt hbad _ _ _ _
    · by_cases hw : window.toNat ≤ 7
      · refine (onWindow_of_le hw _ _ _ _).trans (if_pos ?_)
        show (!decide (0 < (s.window window.toNat).height)) = true
        rw [hheight]
        rfl
      · exact onWindow_of_gt (not_le.mp hw) _ _ _ _
  | halt rx window hbad =>
    cases hi
    exact hcommand (fun _ => rfl) nofun (onWindow_of_gt hbad _ _ _ _)
  | freeze rx window hbad =>
    cases hi
    exact hcommand (fun _ => rfl) nofun (onWindow_of_gt hbad _ _ _ _)
  | thaw rx window hbad =>
    cases hi
    exact hcommand (fun _ => rfl) nofun (onWindow_of_gt hbad _ _ _ _)
  | override rx window mode hbad =>
    cases hi
    refine hcommand (fun _ => rfl) nofun ?_
    by_cases hw : window.toNat ≤ 7
    · rw [onWindow_of_le hw, readOverride_of_gt (hbad.resolve_left (by omega))]
      rfl
    · exact onWindow_of_gt (not_le.mp hw) _ _ _ _

/-- Settles O31: every refusal is `State.refuse` where the parcel has arrived. -/
theorem badCodesRefused : Obligations.BadCodesRefused := by
  refine ⟨fun rx code s hh ha => ?_, fun rx kind s hh ha => ?_,
    fun rx rec start reason s hh ha hstart hbad => ?_,
    fun i rx kind code reason s hi hh ha h => ?_⟩
  · exact Refused.of_exec (exec_command (fun _ => rfl) hh ha) nofun
  · exact Refused.of_exec (exec_layout (fun _ => rfl) hh ha) nofun
  · have hexec : exec (.field rx rec) s =
        .next (((s.arrived rx).claimed rx.origin).refuse 7 1 reason rx.origin) := by
      refine (exec_layout (fun _ => rfl) hh ha).trans (congrArg _ ?_)
      subst hstart
      obtain ⟨rfl, h⟩ | ⟨l, hl, hroom, ⟨rfl, h⟩ | ⟨rfl, ho, h⟩⟩ := hbad
      · refine takeField_of_range ?_
        obtain h | h | ⟨e, he, hwidth, h⟩ := h
        · exact .inl (readEntries_of_bad (.inl h))
        · exact .inr h
        · exact .inl (readEntries_of_bad (.inr ⟨e, he, readEntry_of_bad hwidth h⟩))
      · exact takeField_of_overlap hl hroom h
      · exact takeField_of_full hl hroom ho h
    refine Refused.of_exec hexec ?_
    rintro rfl
    obtain ⟨h, -⟩ | ⟨-, -, -, ⟨h, -⟩ | ⟨h, -⟩⟩ := hbad <;> cases h
  · have hrefused := refused_of_refuses hi hh ha h
    by_cases hkind : kind = 7
    · rw [if_pos hkind] at hrefused ⊢
      exact hrefused
    · rw [if_neg hkind] at hrefused ⊢
      exact hrefused

/-! ## The small tables -/

theorem Tab.look_put_of_ne {α : Type} [DecidableEq α] (d : α) {k j : Nat} (h : j ≠ k) (v : α)
    (t : Tab α) : Tab.look j (Tab.put d k v t) = Tab.look j t := by
  unfold Tab.put
  split
  · rw [Tab.look_erase, if_neg h]
  · rw [Tab.look_insert, if_neg h]

theorem stepIndex_inj {w i v j : Nat} (hi : i ≤ 15) (hj : j ≤ 15) :
    16 * w + i = 16 * v + j ↔ w = v ∧ i = j := by omega

/-- Settles O29: each record puts its entry in its table. -/
theorem smallTablesWritten : Obligations.SmallTablesWritten := by
  refine ⟨fun rx rec m s hh ha hi hm => ?_, fun rx rec s hh ha hi => ?_, fun rx rec s hh ha hi => ?_,
    fun rx rec p s hh ha hw hi hp => ?_⟩
  · refine ⟨_, exec_layout (fun _ => rfl) hh ha, ?_⟩
    simp only [takePolicy, readPolicy, readWindow_of_le hi, hm]
    exact ⟨Tab.get_put_self _ _ _ _, fun i hne => Tab.get_put_of_ne _ hne _ _, rfl⟩
  · refine ⟨_, exec_layout (fun _ => rfl) hh ha, ?_⟩
    simp only [takePalette, readBelow_of_lt (Nat.lt_succ_of_le hi)]
    refine ⟨fun c => ?_, rfl⟩
    split
    · next hc =>
      rw [State.rgb, hc]
      exact Tab.get_put_self _ _ _ _
    · next hc => exact congrArg (Option.getD · _) (Tab.look_put_of_ne _ hc _ _)
  · refine ⟨_, exec_layout (fun _ => rfl) hh ha, ?_⟩
    simp only [takeCondLabel, readBelow_of_lt (Nat.lt_succ_of_le hi)]
    exact ⟨fun c => Tab.get_put _ _ _ _ _, rfl⟩
  · refine ⟨_, exec_layout (fun _ => rfl) hh ha, ?_⟩
    simp only [takeCarousel, readStep, readWindow_of_le hw, readBelow_of_lt (Nat.lt_succ_of_le hi), hp]
    refine ⟨fun w i hi' => (Tab.get_put _ _ _ _ _).trans ?_, rfl⟩
    simp only [stepIndex_inj hi' hi]
    rfl

/-! ## HALT, FREEZE and OVERRIDE -/

/-- A window command with an operand above 7 is refused. -/
theorem exec_onWindow_of_gt {i : Instr} {rx : Rx} {code : Nibble} {window : Byte}
    {act : Nat → State → State} {s : State}
    (h : ∀ u, exec i u = running (commandParcel rx code (onWindow rx code window act)) u)
    (hh : s.hears rx true) (ha : s.allows rx.origin) (hw : 7 < window.toNat) :
    exec i s = .next ((s.arrived rx).refuse 2 code .range rx.origin) :=
  (exec_command h hh ha).trans (congrArg _ (onWindow_of_gt hw _ _ _ _))

theorem exec_onWindow_of_le {i : Instr} {rx : Rx} {code : Nibble} {window : Byte}
    {act : Nat → State → State} {s : State}
    (h : ∀ u, exec i u = running (commandParcel rx code (onWindow rx code window act)) u)
    (hh : s.hears rx true) (ha : s.allows rx.origin) (hw : window.toNat ≤ 7) :
    exec i s = .next (act window.toNat (s.arrived rx)) :=
  (exec_command h hh ha).trans (congrArg _ (onWindow_of_le hw _ _ _ _))

/-- Settles O36. -/
theorem haltStops : Obligations.HaltStops := by
  intro rx window s hh ha
  by_cases hw : window.toNat ≤ 7
  · refine ⟨_, exec_onWindow_of_le (fun _ => rfl) hh ha hw,
      fun _ => ⟨State.window_modWindow_self _ _ _, fun w hne => ?_, rfl⟩, fun h => absurd h (not_lt.mpr hw)⟩
    exact (State.window_modWindow _ _ _ _).trans (if_neg hne)
  · exact ⟨_, exec_onWindow_of_gt (fun _ => rfl) hh ha (not_le.mp hw), fun h => absurd h hw,
      fun _ => ⟨rfl, rfl⟩⟩

theorem frozenBy_showing {v : Window} (h : v.state = .showing) :
    frozenBy v = { v with state := .frozen, dirty := false } := by simp only [frozenBy, h]

theorem frozenBy_composing {v : Window} (h : v.state = .composing) :
    frozenBy v = { v with freezeReq := true } := by
  cases v
  cases h
  rfl

theorem frozenBy_other {v : Window} (h : v.state = .frozen ∨ v.state = .empty) : frozenBy v = v := by
  obtain h | h := h <;> simp only [frozenBy, h]

/-- Settles O37. -/
theorem freezeByState : Obligations.FreezeByState := by
  intro rx window s hh ha
  by_cases hw : window.toNat ≤ 7
  · have hself : (takeFreeze window.toNat (s.arrived rx)).window window.toNat =
        frozenBy (s.window window.toNat) := State.window_modWindow_self _ _ _
    refine ⟨_, exec_onWindow_of_le (fun _ => rfl) hh ha hw,
      fun _ => ⟨fun h => ?_, fun h => ?_, fun h => ?_, fun w hne => ?_, rfl⟩,
      fun h => absurd h (not_lt.mpr hw)⟩
    · rw [hself, frozenBy_showing h]
    · rw [hself, frozenBy_composing h]
    · rw [hself, frozenBy_other h]
    · exact (State.window_modWindow _ _ _ _).trans (if_neg hne)
  · exact ⟨_, exec_onWindow_of_gt (fun _ => rfl) hh ha (not_le.mp hw), fun h => absurd h hw,
      fun _ => ⟨rfl, rfl⟩⟩

/-! ## Frames, COUNTER CLEAR and the crawl parcels -/

/-- Settles O49. -/
theorem frameLatchesBlink : Obligations.FrameLatchesBlink := by
  intro s hhigh
  exact ⟨_, exec_of_running (i := .frameStart) (f := startFrame) (fun _ => rfl) hhigh, decide_eq_true_iff,
    rfl, rfl⟩

theorem State.arrived_nextTag (s : State) (rx : Rx) : (s.arrived rx).nextTag = s.nextTag := by
  have hlap : (s.arrived rx).lnk.lap = s.lnk.lap := by
    rw [State.arrived_lnk, hear_frame, advanceTo_lap]
  simp only [State.nextTag, hlap, State.arrived_crw]

/-- The state after a HANDOFF, by crawl role (R157, R165). -/
theorem takeHandoff_eq (origin : Station) (b : HandoffBody) (s : State) :
    takeHandoff origin b s = if role s.straps = .link origin then holdHandoff b s else s := by
  unfold takeHandoff
  split
  · next h => simp [h]
  · next h => simp [h]
  · next up h => simp [h, eq_comm]

theorem takeCrawlText_of_head {b : CrawlTextBody} {s : State} (h : role s.straps = .head) :
    takeCrawlText b s =
      if s.crw.queue.length + (textCells b).length ≤ 1024 then
        s.modCrw fun c => { c with queue := c.queue ++ textCells b }
      else s.tallyTextDrop := by
  simp only [takeCrawlText, h]
  rfl

theorem takeCrawlText_of_not_head {b : CrawlTextBody} {s : State} (h : role s.straps ≠ .head) :
    takeCrawlText b s = s := by
  unfold takeCrawlText
  split
  · rfl
  · rfl
  · exact absurd ‹_› h

theorem flushCrawl_of_not_head {s : State} (h : role s.straps ≠ .head) : flushCrawl s = s := by
  unfold flushCrawl
  split
  · rfl
  · rfl
  · exact absurd ‹_› h

/-- Settles O53. -/
theorem crawlParcelsTaken : Obligations.CrawlParcelsTaken := by
  refine ⟨fun rx b s hh => ?_, fun rx b s hh => ?_, fun rx s hh ha => ?_⟩
  · have hexec : exec (.handoff rx b) s = .next (takeHandoff rx.origin b (s.arrived rx)) := by
      rw [exec_of_running (i := .handoff rx b) (f := receive rx false (takeHandoff rx.origin b))
        (fun _ => rfl) hh.1, receive_hears _ hh]
    have htaken (hrole : role s.straps = .link rx.origin) :
        takeHandoff rx.origin b (s.arrived rx) =
          if b.tag = s.nextTag then
            (s.arrived rx).modCrw fun c => { c with hold := some { tag := b.tag, cell := handoffCell b } }
          else (s.arrived rx).countUnderLate := by
      rw [takeHandoff_eq, if_pos (show role (s.arrived rx).straps = _ from hrole), holdHandoff,
        State.arrived_nextTag]
    refine ⟨_, hexec, fun hrole htag => ?_, fun hrole htag => ?_, fun hrole => ?_⟩
    · rw [htaken hrole]
      exact if_pos htag
    · rw [htaken hrole, if_neg htag]
      exact ⟨rfl, bump_of_ne_allOnes⟩
    · rw [takeHandoff_eq]
      exact if_neg hrole
  · have hexec : exec (.crawltext rx b) s = .next (takeCrawlText b (s.arrived rx)) := by
      rw [exec_of_running (i := .crawltext rx b) (f := receive rx true (takeCrawlText b))
        (fun _ => rfl) hh.1, receive_hears _ hh]
    refine ⟨_, textCells b, hexec, rfl, fun hrole hroom => ?_, fun hrole hroom => ?_,
      fun hrole => takeCrawlText_of_not_head hrole⟩
    · exact (takeCrawlText_of_head (s := s.arrived rx) hrole).trans (if_pos hroom)
    · have hdrop : takeCrawlText b (s.arrived rx) = (s.arrived rx).tallyTextDrop :=
        (takeCrawlText_of_head (s := s.arrived rx) hrole).trans (if_neg (not_le.mpr hroom))
      rw [hdrop]
      exact ⟨rfl, bumpTally_toNat _⟩
  · refine ⟨_, exec_command (fun _ => rfl) hh ha, fun hrole => ?_,
      fun hrole => flushCrawl_of_not_head hrole⟩
    have : role (s.arrived rx).straps = .head := hrole
    simp only [flushCrawl, this]
    rfl

theorem rebuildRow_of_row {s : State} (hrow : s.straps.srow = true) :
    rebuildRow s =
      { s with sts := { s.sts with text := statusText s }, cpl := { s.cpl with statusReq := true } } :=
  if_pos hrow

theorem rebuildRow_of_no_row {s : State} (h : s.straps.srow = false) : rebuildRow s = s :=
  if_neg (by rw [h]; exact Bool.false_ne_true)

theorem refreshRow_of_text {s : State} (hrow : s.straps.srow = true) (ht : s.sts.text ≠ []) :
    refreshRow s =
      { s with sts := { s.sts with text := statusText s }, cpl := { s.cpl with statusReq := true } } := by
  rw [refreshRow, if_neg, rebuildRow_of_row hrow]
  rwa [List.isEmpty_iff]

theorem refreshRow_of_none {s : State} (h : s.straps.srow = false ∨ s.sts.text = []) :
    refreshRow s = s := by
  unfold refreshRow
  obtain h | h := h
  · rw [rebuildRow_of_no_row h, ite_self]
  · rw [h]
    rfl

theorem length_statusText (s : State) : (statusText s).length = cols s.straps := by
  rw [statusText, fitRow, List.length_take, List.length_append, List.length_replicate]
  omega

/-- STS after a COUNTER CLEAR, before the row's rebuild (R204). -/
def Sts.cleared (t : Sts) : Sts :=
  { t with
    counters := zeroCounters 32
    tallies := zeroTallies
    report := clearedReport t.report
    clashLatch := false
    foreignLatch := false
    syncSeen := false }

theorem clearCounters_of_none {s : State} (h : s.straps.srow = false ∨ s.sts.text = []) :
    clearCounters s = { s with sts := s.sts.cleared } :=
  refreshRow_of_none (s := { s with sts := s.sts.cleared }) h

theorem clearCounters_of_text {s : State} (hrow : s.straps.srow = true) (ht : s.sts.text ≠ []) :
    clearCounters s =
      { s with
        sts := { s.sts.cleared with text := statusText { s with sts := s.sts.cleared } }
        cpl := { s.cpl with statusReq := true } } :=
  refreshRow_of_text (s := { s with sts := s.sts.cleared }) hrow ht

/-- Settles O55. -/
theorem counterClearResets : Obligations.CounterClearResets := by
  refine ⟨fun rx s hh ha => ⟨_, exec_command (fun _ => rfl) hh ha, ?_⟩, fun rx o s hh ho hne => ?_⟩
  · by_cases h : s.straps.srow = false ∨ s.sts.text = []
    · rw [clearCounters_of_none (s := s.arrived rx) h]
      refine ⟨rfl, fun hrow ht => ?_, fun _ => ⟨rfl, rfl⟩, rfl⟩
      obtain h | h := h
      · rw [hrow] at h
        cases h
      · exact absurd h ht
    · obtain ⟨hrow, ht⟩ := not_or.mp h
      rw [clearCounters_of_text (s := s.arrived rx) (Bool.not_eq_false _ ▸ hrow) ht]
      exact ⟨rfl, fun _ _ => ⟨rfl, rfl⟩, fun h' => absurd h' h, rfl⟩
  · refine ⟨_, exec_checked_foreign rfl hh ho hne, ?_⟩
    rw [State.refuse_foreign_eq]
    exact ⟨rfl, bump_of_ne_allOnes, rfl⟩

/-! ## LAYOUT CLEAR -/

theorem planeRow_planeAddr {row column : Nat} (h : column < 256) :
    planeRow (planeAddr row column) = row := by
  unfold planeRow planeAddr
  omega

theorem get_clearPlane (keep : Option Nat) (plane : Tab Cell) {row column : Nat} (h : column < 256) :
    Tab.get resetCell (planeAddr row column) (clearPlane keep plane) =
      if some row = keep then Tab.get resetCell (planeAddr row column) plane else resetCell := by
  have hlook := Tab.look_filter (planeAddr row column) (fun a => decide (some (planeRow a) = keep)) plane
  rw [planeRow_planeAddr h] at hlook
  rw [Tab.get, clearPlane, hlook]
  simp only [decide_eq_true_eq]
  split <;> rfl

/-- Settles O33. -/
theorem layoutClearResets : Obligations.LayoutClearResets := by
  intro rx s hh ha
  refine ⟨_, exec_command (fun _ => rfl) hh ha, rfl, rfl, rfl, rfl, rfl, rfl, rfl, rfl, rfl, rfl, rfl,
    length_resetCrawlRow _, fun _ => mem_resetCrawlRow, rfl, rfl, rfl, rfl, rfl,
    fun row column hc hrow => ?_, fun row column hc hrow hnone => ?_, rfl, rfl, rfl⟩
  · exact (get_clearPlane _ _ hc).trans (if_neg hrow)
  · refine (get_clearPlane _ _ hc).trans ((if_pos hrow).trans ?_)
    show Tab.get _ _ (landWrite s.cpl.plane s.cpl.granted) = _
    rw [hnone]
    rfl

end Sys2Proof.Machine

/-! PROOFS. The paint queue, the plane port and what the port's reports start (spec/07 sections 7.3 and
7.5, spec/10 section 10.2). -/

namespace Sys2Proof.Machine

/-! ## The paint queue (R116) -/

theorem mem_of_mem_enqueueReq {r q : PaintReq} {l : List PaintReq} (h : q ∈ enqueueReq r l) :
    q ∈ l ∨ q = r := by
  induction l with
  | nil => exact .inr (List.mem_singleton.mp h)
  | cons p l ih =>
    unfold enqueueReq at h
    split at h
    · split at h
      · obtain rfl | h := List.mem_cons.mp h
        · exact .inr rfl
        · exact .inl (List.mem_cons_of_mem _ h)
      · exact .inl h
    · obtain rfl | h := List.mem_cons.mp h
      · exact .inl List.mem_cons_self
      · exact (ih h).imp_left (List.mem_cons_of_mem _)

theorem mem_enqueueReq_of_mem {r q : PaintReq} {l : List PaintReq} (h : q ∈ l)
    (hk : r.kind.rank ≤ q.kind.rank) : q ∈ enqueueReq r l := by
  induction l with
  | nil => cases h
  | cons p l ih =>
    unfold enqueueReq
    split
    · split
      · next hlt =>
        obtain rfl | h := List.mem_cons.mp h
        · exact absurd hlt (not_lt.mpr hk)
        · exact List.mem_cons_of_mem _ h
      · exact h
    · obtain rfl | h := List.mem_cons.mp h
      · exact List.mem_cons_self
      · exact List.mem_cons_of_mem _ (ih h)

theorem exists_mem_enqueueReq (r : PaintReq) (l : List PaintReq) :
    ∃ q ∈ enqueueReq r l, q.index = r.index ∧ r.kind.rank ≤ q.kind.rank := by
  induction l with
  | nil => exact ⟨r, List.mem_cons_self, rfl, le_rfl⟩
  | cons p l ih =>
    unfold enqueueReq
    split
    · next hp =>
      split
      · exact ⟨r, List.mem_cons_self, rfl, le_rfl⟩
      · next hlt => exact ⟨p, List.mem_cons_self, hp, not_lt.mp hlt⟩
    · obtain ⟨q, hq, h⟩ := ih
      exact ⟨q, List.mem_cons_of_mem _ hq, h⟩

/-- What a queue holds after requests of one kind is what it held or one of them. -/
theorem mem_of_mem_enqueueAll {kind : PaintKind} {indices : List Nat} {l : List PaintReq} {q : PaintReq}
    (h : q ∈ enqueueAll kind indices l) : q ∈ l ∨ q.index ∈ indices ∧ q.kind = kind := by
  unfold enqueueAll at h
  induction indices generalizing l with
  | nil => exact .inl h
  | cons i t ih =>
    obtain h | ⟨hi, hk⟩ := ih h
    · obtain h | rfl := mem_of_mem_enqueueReq h
      · exact .inl h
      · exact .inr ⟨List.mem_cons_self, rfl⟩
    · exact .inr ⟨List.mem_cons_of_mem _ hi, hk⟩

/-- A request stands against requests of a kind that is not above its own. -/
theorem mem_enqueueAll_of_mem {kind : PaintKind} {indices : List Nat} {l : List PaintReq} {q : PaintReq}
    (h : q ∈ l) (hk : kind.rank ≤ q.kind.rank) : q ∈ enqueueAll kind indices l := by
  unfold enqueueAll
  induction indices generalizing l with
  | nil => exact h
  | cons i t ih => exact ih (mem_enqueueReq_of_mem h hk)

/-- Every field requested is in the queue afterwards, with a kind at least that of the request. -/
theorem exists_mem_enqueueAll {kind : PaintKind} {indices : List Nat} {l : List PaintReq} {i : Nat}
    (h : i ∈ indices) : ∃ q ∈ enqueueAll kind indices l, q.index = i ∧ kind.rank ≤ q.kind.rank := by
  induction indices generalizing l with
  | nil => cases h
  | cons j t ih =>
    obtain rfl | h := List.mem_cons.mp h
    · obtain ⟨q, hq, hi, hk⟩ := exists_mem_enqueueReq { index := i, kind := kind } l
      exact ⟨q, mem_enqueueAll_of_mem (indices := t) hq hk, hi, hk⟩
    · exact ih h

theorem kind_of_initial_rank {k : PaintKind} (h : PaintKind.initial.rank ≤ k.rank) : k = .initial := by
  cases k
  case initial => rfl
  all_goals exact absurd h (by decide)

theorem kind_of_thaw_rank {k : PaintKind} (h : PaintKind.thaw.rank ≤ k.rank) :
    k = .thaw ∨ k = .initial := by
  cases k
  case initial => exact .inr rfl
  case thaw => exact .inl rfl
  all_goals exact absurd h (by decide)

theorem ordinary_rank_le {k : PaintKind} (h : k ≠ .repaint) : PaintKind.ordinary.rank ≤ k.rank := by
  cases k
  case repaint => exact absurd rfl h
  all_goals decide

theorem repaint_rank_le (k : PaintKind) : PaintKind.repaint.rank ≤ k.rank := Nat.zero_le _

theorem exists_initial_enqueueAll {indices : List Nat} {l : List PaintReq} {i : Nat} (h : i ∈ indices) :
    ∃ q ∈ enqueueAll .initial indices l, q.index = i ∧ q.kind = .initial := by
  obtain ⟨q, hq, hi, hk⟩ := exists_mem_enqueueAll (kind := .initial) (l := l) h
  exact ⟨q, hq, hi, kind_of_initial_rank hk⟩

/-- The fields of the queue keep their order, the new ones follow in the order of the requests. -/
theorem enqueueAll_indices (kind : PaintKind) {indices : List Nat} (hn : indices.Nodup)
    (l : List PaintReq) :
    (enqueueAll kind indices l).map PaintReq.index =
      l.map PaintReq.index ++ indices.filter fun i => decide (i ∉ l.map PaintReq.index) := by
  unfold enqueueAll
  induction indices generalizing l with
  | nil => simp
  | cons i t ih =>
    obtain ⟨hi, ht⟩ := List.nodup_cons.mp hn
    rw [List.foldl_cons, ih ht, enqueueReq_indices]
    by_cases hmem : i ∈ l.map PaintReq.index
    · rw [if_pos hmem, List.filter_cons_of_neg (by simpa using hmem)]
    · rw [if_neg hmem, List.filter_cons_of_pos (by simpa using hmem), List.append_assoc,
        List.singleton_append]
      congr 2
      refine List.filter_congr fun j hj => ?_
      have hne : j ≠ i := fun h => hi (h ▸ hj)
      simp [hne]

/-! ## OVERRIDE -/

theorem takeOverride_pnt (m : OverrideMode) (w : Nat) (s : State) :
    (takeOverride m w s).pnt =
      if (s.window w).state = .empty then s.pnt
      else { s.pnt with queue := enqueueAll .repaint (s.visible w) s.pnt.queue } := by
  unfold takeOverride
  split <;> rfl

theorem takeOverride_window (m : OverrideMode) (w u : Nat) (s : State) :
    (takeOverride m w s).window u =
      if u = w then { s.window w with override := m } else s.window u := by
  have : (takeOverride m w s).window u =
      (s.modWindow w fun v => { v with override := m }).window u := by
    unfold takeOverride
    split <;> rfl
  rw [this, State.window_modWindow]

/-- Settles O39. -/
theorem overrideRepaints : Obligations.OverrideRepaints := by
  intro rx window mode s hh ha hw
  have hexec := exec_onWindow_of_le (i := .override rx window mode) (fun _ => rfl) hh ha hw
  refine ⟨_, hexec, fun hmode => ?_, fun hmode => ?_⟩
  · simp only [readOverride_of_le hmode]
    generalize (if mode = 0 then OverrideMode.none else if mode = 1 then .dash else .test) = m
    have hpnt := takeOverride_pnt m window.toNat (s.arrived rx)
    refine ⟨(takeOverride_window _ _ _ _).trans (if_pos rfl),
      fun w hne => (takeOverride_window _ _ _ _).trans (if_neg hne), fun hshown => ?_, fun hempty => ?_, ?_⟩
    · rw [hpnt.trans (if_neg hshown)]
      refine ⟨fun i hi => ?_, fun q hq => mem_enqueueAll_of_mem hq (repaint_rank_le _),
        fun q hq => mem_of_mem_enqueueAll hq⟩
      obtain ⟨q, hq, hi, -⟩ := exists_mem_enqueueAll (kind := .repaint) (l := s.pnt.queue) hi
      exact ⟨q, hq, hi⟩
    · exact hpnt.trans (if_pos hempty)
    · have hqueue : (takeOverride m window.toNat (s.arrived rx)).pnt =
          { s.pnt with queue := (takeOverride m window.toNat (s.arrived rx)).pnt.queue } := by
        rw [hpnt]
        split <;> rfl
      exact (takeOverride_frame m window.toNat (s.arrived rx)).trans
        (congrArg (fun p => { s.arrived rx with
          pnt := p, win := (takeOverride m window.toNat (s.arrived rx)).win }) hqueue)
  · simp only [readOverride_of_gt hmode]
    exact ⟨rfl, rfl⟩

/-! ## Pending release and highlight expiry -/

theorem pendingDue_iff {now : Sweep} {p : PaintState} :
    pendingDue now p = true ↔ ∃ due, p.pending = some due ∧ (now - due).toNat < 2 ^ 31 := by
  unfold pendingDue
  cases p.pending with
  | none => simp
  | some due => simp [reached_iff]

theorem mem_duePaints {s : State} (h : s.canonical) (i : Nat) :
    i ∈ duePaints s ↔ pendingDue s.now (s.paintState i) = true := by
  obtain ⟨-, hwf, -⟩ := h
  have hrising := ((Tab.wf_iff _ _).mp hwf).1
  simp only [duePaints, List.mem_map, List.mem_filter]
  constructor
  · rintro ⟨e, ⟨he, hdue⟩, rfl⟩
    rwa [State.paintState, Tab.get_of_mem _ hrising he]
  · intro hdue
    refine ⟨(i, s.paintState i), ⟨Tab.mem_of_get fun h => ?_, hdue⟩, rfl⟩
    rw [State.paintState, h] at hdue
    cases hdue

/-- Settles O45. -/
theorem duePaintsAndHighlights : Obligations.DuePaintsAndHighlights := by
  refine ⟨fun s hhigh hcanon => ?_, fun s hhigh hlist => ?_⟩
  · have hdue (i : Nat) := (mem_duePaints hcanon i).trans pendingDue_iff
    refine ⟨_, exec_of_running (i := .pendingRelease) (f := releasePending) (fun _ => rfl) hhigh,
      fun i => ?_, fun i => ?_, fun q hq => ?_, fun q hq hk => ?_, rfl⟩
    · refine (get_foldl_clearPending _ _ _).trans ?_
      simp only [hdue]
      rfl
    · exact (mem_enqueueAll _ _ _ _).trans (or_congr_right (hdue i))
    · exact (mem_of_mem_enqueueAll hq).imp_right And.right
    · exact mem_enqueueAll_of_mem hq (ordinary_rank_le hk)
  · have hstate (i : Nat) : (expireHighlights s).paintState i =
        if i ∈ (s.pnt.highlights.filter fun h => reached s.now h.due).map Highlight.index then
          expiredFlash (modeOf s.lay i) (s.paintState i)
        else s.paintState i := get_foldl_expireField _ _ _ _
    refine ⟨_, exec_of_running (i := .highlightExpiry) (f := expireHighlights) (fun _ => rfl) hhigh,
      fun h => ?_, fun h hmem hdue => ?_, fun i hnone => ?_, rfl⟩
    · simp only [expireHighlights, State.modPnt, List.mem_filter, Bool.not_eq_true',
        ← Bool.not_eq_true, reached_iff]
      rfl
    · rw [hstate, if_pos]
      · exact ⟨rfl, rfl⟩
      · exact List.mem_map.mpr ⟨h, List.mem_filter.mpr ⟨hmem, (reached_iff _ _).mpr hdue⟩, rfl⟩
    · rw [hstate, if_neg]
      intro hlisted
      obtain ⟨h, hexpired, rfl⟩ := List.mem_map.mp hlisted
      obtain ⟨hmem, hdue⟩ := List.mem_filter.mp hexpired
      exact hnone h hmem rfl ((reached_iff _ _).mp hdue)

/-! ## The port's grants -/

theorem grantNext_fetch {s : State} {r : Nat} (hg : s.cpl.granted = none)
    (hf : s.cpl.fetchReq = some r) : grantNext s = fetchRow r s := by
  simp only [grantNext, hg, hf]

theorem grantNext_crawl {s : State} (hg : s.cpl.granted = none) (hf : s.cpl.fetchReq = none)
    (hc : s.cpl.crawlReq = true) : grantNext s = grantCrawl s := by
  simp only [grantNext, hg, hf, hc, if_true]

theorem grantNext_turn {s : State} (hg : s.cpl.granted = none) (hf : s.cpl.fetchReq = none)
    (hc : s.cpl.crawlReq = false) : grantNext s = grantByTurn s := by
  simp only [grantNext, hg, hf, hc, Bool.false_eq_true, if_false]

theorem waitingBurst_some {p : Pnt} {b : PaintBurst} (hb : p.burst = some b) (h : b.stage = .waiting) :
    waitingBurst p = some b := by
  simp [waitingBurst, hb, h]

theorem waitingBurst_none {p : Pnt} (h : ∀ b, p.burst = some b → b.stage ≠ .waiting) :
    waitingBurst p = none := by
  unfold waitingBurst
  cases hb : p.burst with
  | none => rfl
  | some b => simp [h b hb]

theorem grantByTurn_painter {s : State} {b : PaintBurst} (hb : s.pnt.burst = some b)
    (hw : b.stage = .waiting) (ht : s.cpl.turn = .painter ∨ s.cpl.bursts = []) :
    grantByTurn s = grantPainter b s := by
  unfold grantByTurn
  rw [waitingBurst_some hb hw]
  obtain ht | ht := ht
  · cases s.cpl.bursts with
    | nil => rfl
    | cons c t => exact if_pos ht
  · rw [ht]

theorem grantByTurn_compose {s : State} {c : Burst} {l : List Burst} (hl : s.cpl.bursts = c :: l)
    (ht : s.cpl.turn = .compose ∨ ∀ b, s.pnt.burst = some b → b.stage ≠ .waiting) :
    grantByTurn s = grantCompose c l s := by
  unfold grantByTurn
  rw [hl]
  obtain ht | ht := ht
  · cases waitingBurst s.pnt with
    | none => rfl
    | some b => exact if_neg (by rw [ht]; decide)
  · rw [waitingBurst_none ht]

theorem grantByTurn_status {s : State} (hl : s.cpl.bursts = [])
    (hb : ∀ b, s.pnt.burst = some b → b.stage ≠ .waiting) (hs : s.cpl.statusReq = true) :
    grantByTurn s = grantStatus s := by
  unfold grantByTurn
  rw [hl, waitingBurst_none hb]
  exact if_pos hs

theorem grantByTurn_plane (s : State) : (grantByTurn s).cpl.plane = s.cpl.plane := by
  unfold grantByTurn
  split
  · rfl
  · rfl
  · split <;> rfl
  · split
    · unfold grantStatus
      split <;> rfl
    · rfl

theorem grantNext_plane (s : State) : (grantNext s).cpl.plane = s.cpl.plane := by
  unfold grantNext
  split
  · rfl
  · rfl
  · split
    · unfold grantCrawl
      split <;> rfl
    · exact grantByTurn_plane s

/-- Settles O46. -/
theorem portGrantsInOrder : Obligations.PortGrantsInOrder := by
  intro s hhigh hg
  refine ⟨_, exec_of_running (i := .portGrant) (f := grantNext) (fun _ => rfl) hhigh, grantNext_plane s,
    fun r hf => ?_, fun r hf hc hrow => ?_, fun b hf hc hb hw ht => ?_, fun c l hf hc hl ht => ?_,
    fun r hf hc hl hb hs hrow => ?_, ?_⟩
  · rw [grantNext_fetch hg hf]
    exact ⟨hg, rfl, rfl, rfl, rfl⟩
  · rw [grantNext_crawl hg hf hc]
    simp only [grantCrawl, hrow]
    exact ⟨rfl, rfl, rfl⟩
  · rw [grantNext_turn hg hf hc, grantByTurn_painter hb hw ht]
    exact ⟨rfl, rfl, rfl, rfl⟩
  · rw [grantNext_turn hg hf hc, grantByTurn_compose hl ht]
    exact ⟨rfl, rfl, rfl, rfl⟩
  · rw [grantNext_turn hg hf hc, grantByTurn_status hl hb hs]
    simp only [grantStatus, hrow]
    exact ⟨rfl, rfl, rfl⟩
  · exact (grantNext_frame s).trans
      (congrArg (fun p => { s with pnt := p, cpl := (grantNext s).cpl }) (grantNext_pnt s))

/-! ## The port's reports -/

/-- The state with the granted write landed (R181). -/
def State.landed (s : State) (w : Write) : State :=
  s.modCpl fun c => { c with plane := writeCells w.row w.column w.cells c.plane, granted := none }

theorem exec_transferComplete {s : State} {w : Write} (hhigh : s.resetHeld = false)
    (hg : s.cpl.granted = some w) : exec .transferComplete s = .next (tellWritten w.by_ (s.landed w)) := by
  refine (exec_of_running (i := .transferComplete) (f := completeWrite) (fun _ => rfl) hhigh).trans ?_
  simp only [completeWrite, hg]
  rfl

/-- Settles O47. -/
theorem transferWritesItsCells : Obligations.TransferWritesItsCells := by
  intro s w hhigh hg hroom
  have hcpl : (tellWritten w.by_ (s.landed w)).cpl = (s.landed w).cpl :=
    read_of_frame State.cpl (tellWritten_frame _ _) rfl
  refine ⟨_, exec_transferComplete hhigh hg, fun row column hc => ?_, fun hwf => ?_, ?_, fun hby => ?_,
    fun hby => ?_⟩
  · rw [State.cell, hcpl]
    exact get_writeCells _ _ _ _ _ _ hc hroom
  · rw [hcpl]
    exact wf_writeCells _ _ _ hwf
  · rw [hcpl]
    rfl
  · rw [hby]
    rfl
  · obtain hby | hby | ⟨o, hby⟩ := hby <;> rw [hby] <;> rfl

theorem settleCompose_of_eq {w : Nat} {s : State} (h : (s.window w).compose = some (.fields [])) :
    settleCompose w s = s.modWindow w finishCompose := if_pos h

theorem settleCompose_of_ne {w : Nat} {s : State} (h : (s.window w).compose ≠ some (.fields [])) :
    settleCompose w s = s := if_neg h

/-- The state at the beginning of a FIELDS phase with a compose set (R142). -/
def State.fieldsBegun (s : State) (w : Nat) (set : List Nat) : State :=
  (s.modWindow w fun v => { v with compose := some (.fields set) }).enqueue .initial set

theorem enterFields_eq {w p : Nat} {s : State} (hp : (s.window w).page = some p)
    (hb : (s.window w).compose = some .bursts) :
    enterFields w s =
      settleCompose w (s.fieldsBegun w (visibleFields s.lay.fields p (s.window w).height)) := by
  simp only [enterFields, hp, hb, if_true]
  rfl

theorem fieldsBegun_window (s : State) (w u : Nat) (set : List Nat) :
    (s.fieldsBegun w set).window u =
      if u = w then { s.window w with compose := some (.fields set) } else s.window u :=
  State.window_modWindow s w u fun v => { v with compose := some (.fields set) }

theorem enterFields_window {w p : Nat} {s : State} (hp : (s.window w).page = some p)
    (hb : (s.window w).compose = some .bursts) (u : Nat) :
    (enterFields w s).window u =
      if u = w then
        if visibleFields s.lay.fields p (s.window w).height = [] then finishCompose (s.window w)
        else { s.window w with
          compose := some (.fields (visibleFields s.lay.fields p (s.window w).height)) }
      else s.window u := by
  rw [enterFields_eq hp hb]
  generalize visibleFields s.lay.fields p (s.window w).height = set
  have hself := (fieldsBegun_window s w w set).trans (if_pos rfl)
  by_cases hset : set = []
  · subst hset
    rw [settleCompose_of_eq (by rw [hself]), State.window_modWindow, hself, fieldsBegun_window]
    split <;> rfl
  · rw [settleCompose_of_ne (by simpa [hself] using hset), fieldsBegun_window]
    simp only [hset, if_false]

theorem enterFields_pnt {w p : Nat} {s : State} (hp : (s.window w).page = some p)
    (hb : (s.window w).compose = some .bursts) :
    (enterFields w s).pnt =
      { s.pnt with queue :=
          enqueueAll .initial (visibleFields s.lay.fields p (s.window w).height) s.pnt.queue } := by
  rw [enterFields_eq hp hb]
  exact read_of_frame State.pnt (settleCompose_frame _ _) rfl

theorem mem_meetingFields {s : State} {regions : List Region} {i : Nat} :
    i ∈ meetingFields s regions ↔ ∃ f r, (i, f) ∈ s.lay.fields ∧ r ∈ regions ∧ meets s f r = true := by
  simp only [meetingFields, List.mem_map, List.mem_filter, List.any_eq_true]
  constructor
  · rintro ⟨e, ⟨he, r, hr, hm⟩, rfl⟩
    exact ⟨e.2, r, he, hr, hm⟩
  · rintro ⟨f, r, hf, hr, hm⟩
    exact ⟨(i, f), ⟨hf, r, hr, hm⟩, rfl⟩

/-- Settles O48. -/
theorem lastBurstStartsFields : Obligations.LastBurstStartsFields := by
  refine ⟨fun s b o w p hhigh hg hby hp hc => ?_, fun s b o l hhigh hg hby => ?_,
    fun s b o regions hhigh hg hby => ?_⟩
  · have hp' : ((s.landed b).window w).page = some p := hp
    have hc' : ((s.landed b).window w).compose = some .bursts := hc
    have hwin (u : Nat) := enterFields_window hp' hc' u
    have hpnt := enterFields_pnt hp' hc'
    refine ⟨enterFields w (s.landed b), ?_, fun hset => ⟨?_, fun i hi => ?_⟩, fun hset => ?_, fun q hq => ?_,
      fun u hu => (hwin u).trans (if_neg hu), ?_⟩
    · rw [exec_transferComplete hhigh hg, hby]
      rfl
    · rw [hwin, if_pos rfl]
      exact if_neg hset
    · rw [hpnt]
      exact exists_initial_enqueueAll hi
    · rw [hwin, if_pos rfl]
      exact if_pos hset
    · rw [hpnt] at hq
      exact mem_of_mem_enqueueAll hq
    · have hcpl : (enterFields w (s.landed b)).cpl = (s.landed b).cpl :=
        read_of_frame State.cpl (enterFields_frame _ _) rfl
      rw [hcpl, hpnt]
      refine (enterFields_frame w (s.landed b)).trans ?_
      rw [hpnt]
      rfl
  · refine ⟨(s.landed b).enqueue .initial l, ?_, fun i hi => exists_initial_enqueueAll hi,
      fun q hq => mem_of_mem_enqueueAll hq, rfl⟩
    rw [exec_transferComplete hhigh hg, hby]
    rfl
  · refine ⟨(s.landed b).enqueue .repaint (meetingFields (s.landed b) regions), ?_,
      fun i f r w v hf hr hpage hrow hleft hright hshow hheight => ?_, fun q hq => ?_, rfl⟩
    · rw [exec_transferComplete hhigh hg, hby]
      rfl
    · refine (mem_enqueueAll _ _ _ _).mpr (.inr (mem_meetingFields.mpr
        ⟨f, r, Tab.mem_of_look hf, hr, ?_⟩))
      have hshow' : (s.landed b).showing r.page = some (w, v) := hshow
      simp only [meets, hshow', hpage, hrow, hleft, hright, hheight, Option.any_some, decide_true,
        Bool.and_true]
    · refine (mem_of_mem_enqueueAll hq).imp_right fun ⟨hi, hk⟩ => ⟨hk, ?_⟩
      obtain ⟨f, r, hf, hr, hm⟩ := mem_meetingFields.mp hi
      simp only [meets, Bool.and_eq_true, decide_eq_true_eq] at hm
      obtain ⟨⟨⟨⟨hpage, hrow⟩, hleft⟩, hright⟩, -⟩ := hm
      exact ⟨f, r, hf, hr, hpage, hrow, hleft, hright⟩

end Sys2Proof.Machine

/-! PROOFS. The colours of a cell, the crawl step and the lap start (spec/10 sections 10.3 to 10.5,
spec/09 sections 9.3 and 9.6, spec/11 section 11.2). -/

namespace Sys2Proof.Machine

/-! ## Colours -/

theorem isReplaced_iff (k : TextKind) : k.isReplaced = true ↔ k = .substituted ∨ k = .overridden := by
  cases k <;> simp [TextKind.isReplaced]

/-- A field's tick colours: the flash's pair, else the stick's fg, else the base pair (R186). -/
theorem tickPair_eq (f : Field) (p : Policy) (ps : PaintState) :
    tickPair f p ps =
      if ps.flash = .up then (p.upFg, p.upBg)
      else if ps.flash = .down then (p.downFg, p.downBg)
      else if ps.flash = .touch then (p.touchFg, p.touchBg)
      else if ps.stick = .up then (p.upStick, f.bg)
      else if ps.stick = .down then (p.downStick, f.bg)
      else (f.fg, f.bg) := by
  unfold tickPair
  cases ps.flash
  case none => cases ps.stick <;> rfl
  all_goals rfl

/-- The chosen pair by the order of R186. -/
theorem chosenPair_eq (g : Global) (f : Field) (p : Policy) (ps : PaintState) (st : RecordState) :
    chosenPair g f p ps st =
      if ps.textKind = .substituted ∨ ps.textKind = .overridden then (f.fg, f.bg)
      else if st = .stale ∨ st = .orphaned then (g.staleFg, f.bg)
      else if st = .gapped then (g.gapFg, f.bg)
      else tickPair f p ps := by
  unfold chosenPair
  by_cases h : ps.textKind.isReplaced = true
  · rw [if_pos h, if_pos ((isReplaced_iff _).mp h)]
  · rw [if_neg h, if_neg (mt (isReplaced_iff _).mpr h)]
    cases st <;> rfl

theorem hideFg_snd (hidden : Bool) (c : Pair) : (hideFg hidden c).2 = c.2 := by
  cases hidden <;> rfl

theorem hideFg_fst (hidden : Bool) (c : Pair) : (hideFg hidden c).1 = if hidden then c.2 else c.1 := by
  cases hidden <;> rfl

theorem cellPair_of_field {s : State} {c : Cell} {i : Nat} {f : Field} {r : Record}
    (hc : c.field = some i) (hf : Tab.look i s.lay.fields = some f) (hr : s.record? f.key = some r) :
    cellPair s c =
      fieldPair s.lay.global f (s.policy f.policy) (s.paintState i) r.state r.marks s.cpl.blinkOn
        c.blink := by
  have hcell : cellField s.lay c = some (i, f) := by simp [cellField, hc, hf]
  have hrec : Tab.look f.key.toNat s.dir.records = some r := hr
  simp only [cellPair, hcell, hrec, recordState, recordMarks]

theorem cellPair_of_no_field {s : State} {c : Cell}
    (h : c.field = none ∨ ∃ i, c.field = some i ∧ Tab.look i s.lay.fields = none) :
    cellPair s c = hideFg (!s.cpl.blinkOn && c.blink) (c.fg, c.bg) := by
  have hcell : cellField s.lay c = none := by
    obtain h | ⟨i, h, hf⟩ := h
    · simp [cellField, h]
    · simp [cellField, h, hf]
  simp only [cellPair, hcell]

/-- The resolved pair of a field cell, with the mark's exchange and the blink (R187, R188). -/
theorem fieldPair_eq (g : Global) (f : Field) (p : Policy) (ps : PaintState) (st : RecordState)
    (marks : Nat) (on blink : Bool) (pair : Pair) (h : chosenPair g f p ps st = pair) :
    (fieldPair g f p ps st marks on blink).2 =
        (if f.localMark = true ∨ 0 < marks then pair.1 else pair.2) ∧
      (fieldPair g f p ps st marks on blink).1 =
        (if on = false ∧ (blink = true ∨ (p.blinkFlash = true ∧ ps.flash ≠ .none ∧ st = .live)) then
          (fieldPair g f p ps st marks on blink).2
        else if f.localMark = true ∨ 0 < marks then pair.2 else pair.1) := by
  have hmark : (f.localMark || decide (0 < marks)) = decide (f.localMark = true ∨ 0 < marks) := by
    rw [Bool.decide_or, Bool.decide_eq_true]
  have hblink : (!on && fieldBlinks blink p ps st) = decide (on = false ∧
      (blink = true ∨ (p.blinkFlash = true ∧ ps.flash ≠ .none ∧ st = .live))) := by
    rw [Bool.eq_iff_iff]
    simp [fieldBlinks, and_assoc]
  unfold fieldPair
  rw [hideFg_snd, hideFg_fst, h, hmark, hblink, markSwap]
  constructor
  · simp only [decide_eq_true_eq]
    split <;> rfl
  · simp only [decide_eq_true_eq]
    split
    · rfl
    · split <;> rfl

theorem look_fetchRow (r : Nat) (s : State) :
    Tab.look r (fetchRow r s).cpl.picture = some (showRow s r) :=
  (Tab.look_insert _ _ _ _).trans (if_pos rfl)

/-- The row due is shown, or its fetch waits for the granted write on it (R181, R183). -/
theorem requestRow_of_due {s : State} (h : s.cpl.nextRow < rows s.straps) :
    requestRow s =
      if s.cpl.writing s.cpl.nextRow then s.modCpl fun c => { c with fetchReq := some c.nextRow }
      else fetchRow s.cpl.nextRow s := if_pos h

theorem writing_iff (c : Cpl) (r : Nat) : c.writing r = true ↔ ∃ w, c.granted = some w ∧ w.row = r := by
  unfold Cpl.writing
  cases c.granted <;> simp

/-- Settles O50. -/
theorem rowFetchResolves : Obligations.RowFetchResolves := by
  refine ⟨fun s hhigh hdue => ?_, fun s c i f r hc hf hr hon => ?_,
    fun s c i f r p pair hc hf hr hp hpair => ?_, fun s c h => ?_⟩
  · refine ⟨_, exec_of_running (i := .rowFetch) (f := requestRow) (fun _ => rfl) hhigh, ?_⟩
    rw [requestRow_of_due hdue]
    by_cases hw : s.cpl.writing s.cpl.nextRow = true
    · rw [if_pos hw]
      refine ⟨rfl, fun hfree => ?_, fun _ _ _ => rfl, rfl⟩
      obtain ⟨w, hg, hrow⟩ := (writing_iff _ _).mp hw
      exact absurd hrow (hfree w hg)
    · rw [if_neg hw]
      refine ⟨rfl, fun _ => ⟨fun l hl c hc => ?_, ?_, rfl⟩, fun w hg hrow => ?_, rfl⟩
      · rw [look_fetchRow] at hl
        obtain rfl := Option.some.inj hl
        simp [showRow, hc]
      · rw [look_fetchRow]
        rfl
      · exact absurd ((writing_iff _ _).mpr ⟨w, hg, hrow⟩) hw
  · have hpair := cellPair_of_field hc hf hr
    have heq := fieldPair_eq s.lay.global f (s.policy f.policy) (s.paintState i) r.state r.marks
      s.cpl.blinkOn c.blink _ rfl
    rw [← hpair] at heq
    obtain ⟨hbg, hfg⟩ := heq
    rw [hon, if_neg (by simp)] at hfg
    rw [chosenPair_eq, tickPair_eq] at hbg hfg
    refine ⟨fun ht hs hflash hl hm => ?_, fun ht hs hm => ?_, fun ht hl hm => ?_, rfl, rfl⟩
    · refine ⟨hfg.trans ?_, hbg.trans ?_⟩ <;> simp [ht, hs, hflash, hl, hm]
    · refine ⟨hfg.trans ?_, hbg.trans ?_⟩ <;> simp [ht, hs, hm]
    · refine ⟨hfg.trans ?_, hbg.trans ?_⟩ <;> simp [ht, hl, hm]
  · have hchosen : chosenPair s.lay.global f (s.policy f.policy) (s.paintState i) r.state = pair := by
      rw [chosenPair_eq, tickPair_eq, hpair, hp]
    have heq := fieldPair_eq s.lay.global f (s.policy f.policy) (s.paintState i) r.state r.marks
      s.cpl.blinkOn c.blink _ hchosen
    rw [← cellPair_of_field hc hf hr, ← hp] at heq
    exact ⟨heq.1, heq.2, rfl, rfl⟩
  · have hpair := cellPair_of_no_field h
    refine ⟨(congrArg Prod.snd hpair).trans (hideFg_snd _ _),
      (congrArg Prod.fst hpair).trans ((hideFg_fst _ _).trans ?_)⟩
    simp only [Bool.and_eq_true, Bool.not_eq_true']

/-! ## The crawl step -/

theorem takeStep_of_due {s : State} (h : s.crw.stepDue = true) : takeStep s = afterStep (newCell s) :=
  if_pos h

theorem exec_crawlStep {s : State} (hhigh : s.resetHeld = false) (h : s.crw.stepDue = true) :
    exec .crawlStep s = .next (afterStep (newCell s)) := by
  rw [exec_of_running (i := .crawlStep) (f := takeStep) (fun _ => rfl) hhigh, takeStep_of_due h]

theorem not_mute_eq (st : Straps) : (!mute st) = decide (st.sn ≠ 0) := by simp [mute]

theorem heldCell_eq_none {tag : Byte} {h : Option Hold} (hne : ∀ x, h = some x → x.tag ≠ tag) :
    heldCell tag h = none := by
  cases h with
  | none => rfl
  | some x => exact if_neg (hne x rfl)

theorem newCell_of_link {s : State} {up : Station} (h : role s.straps = .link up) :
    newCell s = linkCell s := by simp only [newCell, h]

theorem newCell_of_head {s : State} (h : role s.straps = .head) :
    newCell s = headCell (refillIfLow s) := by simp only [newCell, h]

theorem linkCell_of_held {s : State} {x : Hold} (h : s.crw.hold = some x) (ht : x.tag = s.stepTag) :
    linkCell s = pushCell x.cell (s.modCrw fun c => { c with hold := none }) := by
  have : heldCell s.stepTag s.crw.hold = some x.cell := by
    rw [h]
    exact if_pos ht
  simp only [linkCell, this]

theorem linkCell_of_none {s : State} (h : ∀ x, s.crw.hold = some x → x.tag ≠ s.stepTag) :
    linkCell s = (pushCell s.blank (s.modCrw fun c => { c with hold := none })).countUnderLate := by
  simp only [linkCell, heldCell_eq_none h]

/-- Settles O51. -/
theorem crawlStepOnLink : Obligations.CrawlStepOnLink := by
  intro s up c row hhigh hdue hrole hrow
  have hshift (new : CrawlCell) : shiftRow new s.crw.row = row ++ [new] := by rw [hrow]; rfl
  by_cases hheld : ∃ x, s.crw.hold = some x ∧ x.tag = s.stepTag
  · obtain ⟨x, hx, ht⟩ := hheld
    refine ⟨_, x.cell, exec_crawlStep hhigh hdue, ?_⟩
    rw [newCell_of_link hrole, linkCell_of_held hx ht]
    refine ⟨hshift _, rfl, fun y hy _ => ?_, fun hne => absurd ht (hne x hx), rfl, not_mute_eq _, rfl, rfl,
      rfl⟩
    rw [Option.some.inj (hx.symm.trans hy)]
    exact ⟨rfl, rfl⟩
  · have hnone : ∀ x, s.crw.hold = some x → x.tag ≠ s.stepTag := fun x hx ht => hheld ⟨x, hx, ht⟩
    refine ⟨_, s.blank, exec_crawlStep hhigh hdue, ?_⟩
    rw [newCell_of_link hrole, linkCell_of_none hnone]
    exact ⟨hshift _, rfl, fun y hy ht => absurd ht (hnone y hy), fun _ => ⟨rfl, bump_of_ne_allOnes⟩, rfl,
      not_mute_eq _, rfl, rfl, rfl⟩

/-! ## The refill -/

theorem findKeyed_of_key {s : State} {k : Key} (n fuel start : Nat) (hn : n < fuel)
    (hnone : ∀ m, m < n → (s.progEntry ((start + m) % 32)).key = none)
    (hkey : (s.progEntry ((start + n) % 32)).key = some k) :
    findKeyed s fuel start = some ((start + n) % 32, k) := by
  induction n generalizing fuel start with
  | zero =>
    obtain ⟨fuel, rfl⟩ := Nat.exists_eq_succ_of_ne_zero (Nat.ne_of_gt hn)
    rw [Nat.add_zero] at hkey ⊢
    simp only [findKeyed, hkey]
  | succ n ih =>
    obtain ⟨fuel, rfl⟩ := Nat.exists_eq_succ_of_ne_zero (Nat.ne_of_gt (Nat.zero_lt_of_lt hn))
    have hfirst : (s.progEntry (start % 32)).key = none := hnone 0 (Nat.succ_pos n)
    have hshift (m : Nat) : start + 1 + m = start + (m + 1) := by omega
    simp only [findKeyed, hfirst]
    rw [ih fuel (start + 1) (Nat.lt_of_succ_lt_succ hn)
      (fun m hm => by rw [hshift]; exact hnone (m + 1) (Nat.succ_lt_succ hm))
      (by rw [hshift]; exact hkey), hshift]

theorem findKeyed_eq_none {s : State} (h : ∀ i, i < 32 → (s.progEntry i).key = none) (fuel start : Nat) :
    findKeyed s fuel start = none := by
  induction fuel generalizing start with
  | zero => rfl
  | succ fuel ih =>
    simp only [findKeyed, h (start % 32) (Nat.mod_lt _ (by decide))]
    exact ih _

theorem refill_of_key {s : State} {i : Nat} {k : Key} (h : findKeyed s 32 s.crw.cursor = some (i, k)) :
    refill s =
      s.modCrw fun c => { c with queue := c.queue ++ s.quote i k, cursor := (i + 1) % 32 } := by
  simp only [refill, h]

theorem refillIfLow_of_none {s : State}
    (h : cols s.straps ≤ s.crw.queue.length ∨ ∀ i, i < 32 → (s.progEntry i).key = none) :
    refillIfLow s = s := by
  unfold refillIfLow
  obtain h | h := h
  · exact if_neg (not_lt.mpr h)
  · simp only [refill, findKeyed_eq_none h, ite_self]

theorem one_le_digitCount (fuel x : Nat) : 1 ≤ digitCount fuel x := by
  unfold digitCount
  split
  · exact le_rfl
  · split
    · exact le_rfl
    · exact Nat.succ_le_succ (Nat.zero_le _)

theorem one_le_length_decText (n : Int) (d : Nat) (plus : Bool) :
    1 ≤ (decText n d plus false).length := by
  have : 1 ≤ (decimal (n.natAbs / 10 ^ d)).length := by
    rw [decimal, length_fixedDigits]
    exact one_le_digitCount _ _
  simp only [decText, integerPart, Bool.false_eq_true, if_false, List.length_append]
  omega

theorem one_le_length_naturalText {v : Value} (h : v ≠ .absent) (items : Tab Stored)
    (decimals : Option Nat) (plus : Bool) : 1 ≤ (naturalText items v decimals plus).length := by
  cases v with
  | absent => exact absurd rfl h
  | clamped c => exact le_rfl
  | present c => exact one_le_length_decText _ _ _

theorem quotedLast_ne_absent {r : Option Record} {v : Value} (h : quotedLast r = some v) :
    v ≠ .absent := by
  unfold quotedLast at h
  split at h
  · cases h
  · split at h
    · next hr =>
      obtain rfl := Option.some.inj h
      exact hr.2
    · cases h

theorem five_le_length_quoteEntry (g : Global) (p : Policy) (label : Text) (r : Option Record) :
    5 ≤ (quoteEntry g p label r).length := by
  unfold quoteEntry
  split
  · simp [crawlText, noQuote, quoteGap, spaces]
  · next last hlast =>
    have := one_le_length_naturalText (quotedLast_ne_absent hlast) ((r.map Record.items).getD []) none false
    simp [crawlText, quoteGap, spaces]
    omega

theorem headCell_of_cons {s : State} {new : CrawlCell} {rest : List CrawlCell}
    (h : s.crw.queue = new :: rest) :
    headCell s = pushCell new (s.modCrw fun c => { c with queue := rest }) := by
  simp only [headCell, h]

theorem headCell_of_nil {s : State} (h : s.crw.queue = []) :
    headCell s = (pushCell s.blank s).tallyIdle := by simp only [headCell, h]

/-- Settles O52. -/
theorem crawlStepOnHead : Obligations.CrawlStepOnHead := by
  refine ⟨fun s c new row rest hhigh hdue hrole hrow hq hlow => ?_,
    fun s c row hhigh hdue hrole hrow hq hnone => ?_, fun s i k hi hlt hkey => ?_,
    fun s c row n i k hhigh hdue hrole hrow hlow hn hi hnone hkey => ?_⟩
  · refine ⟨_, exec_crawlStep hhigh hdue, ?_⟩
    rw [newCell_of_head hrole, refillIfLow_of_none hlow, headCell_of_cons hq]
    refine ⟨?_, rfl, rfl, not_mute_eq _, rfl⟩
    show shiftRow new s.crw.row = _
    rw [hrow]
    rfl
  · refine ⟨_, exec_crawlStep hhigh hdue, ?_⟩
    rw [newCell_of_head hrole, refillIfLow_of_none (.inr hnone), headCell_of_nil hq]
    refine ⟨?_, hq, rfl, bumpTally_toNat _⟩
    show shiftRow s.blank s.crw.row = _
    rw [hrow]
    rfl
  · have hmod : (s.crw.cursor + 0) % 32 = i := by omega
    have hfind := findKeyed_of_key (s := s) (k := k) 0 32 s.crw.cursor (by decide)
      (fun m hm => absurd hm (Nat.not_lt_zero m)) (by rw [hmod]; exact hkey)
    rw [hmod] at hfind
    rw [refill_of_key hfind]
    exact ⟨rfl, rfl, five_le_length_quoteEntry _ _ _ _⟩
  · subst hi
    have hfill : refillIfLow s = s.modCrw fun c =>
        { c with
          queue := c.queue ++ s.quote ((s.crw.cursor + n) % 32) k
          cursor := ((s.crw.cursor + n) % 32 + 1) % 32 } :=
      (if_pos hlow).trans (refill_of_key (findKeyed_of_key n 32 s.crw.cursor hn hnone hkey))
    have hne : s.crw.queue ++ s.quote ((s.crw.cursor + n) % 32) k ≠ [] := by
      have := five_le_length_quoteEntry s.lay.global (s.policy 0)
        (s.progEntry ((s.crw.cursor + n) % 32)).label (Tab.look k.toNat s.dir.records)
      intro h
      have hnil : s.quote ((s.crw.cursor + n) % 32) k = [] := (List.append_eq_nil_iff.mp h).2
      rw [State.quote] at hnil
      rw [hnil] at this
      exact absurd this (by decide)
    obtain ⟨new, rest, hq⟩ := List.exists_cons_of_ne_nil hne
    refine ⟨_, new, rest, exec_crawlStep hhigh hdue, hq, ?_⟩
    rw [newCell_of_head hrole, hfill, headCell_of_cons hq]
    have hshift : shiftRow new s.crw.row = row ++ [new] := by
      rw [hrow]
      rfl
    rw [← hshift, ← not_mute_eq]
    exact ⟨rfl, rfl⟩

/-! ## The lap start -/

theorem hold16_toNat (c : BitVec 32) : (hold16 c).toNat = min 65535 c.toNat := by
  unfold hold16
  split
  · next h => rw [min_eq_left h.le, BitVec.toNat_allOnes]
  · next h =>
    rw [min_eq_right (not_lt.mp h), BitVec.toNat_setWidth, Nat.mod_eq_of_lt (by omega)]

theorem hold8_toNat (n : Nat) : (hold8 n).toNat = min 255 n := by
  rw [hold8, BitVec.toNat_ofNat, Nat.mod_eq_of_lt (by omega), min_comm]

theorem hold16_ne_zero_iff (c : BitVec 32) : hold16 c ≠ 0 ↔ c ≠ 0 := by
  simp only [ne_eq, ← BitVec.toNat_inj, hold16_toNat]
  show ¬ min 65535 c.toNat = 0 ↔ ¬ c.toNat = 0
  omega

theorem stateCount_pos_iff (d : Dir) (st : RecordState) :
    0 < stateCount d st ↔ ∃ e ∈ d.records, e.2.state = st := by
  simp [stateCount, List.length_pos_iff_exists_mem]

theorem mem_silentSet {p : Ptb} {n : Nat} :
    n ∈ silentSet p ↔ ∃ e ∈ p.peers, e.1 = n ∧ e.2.state = .silent := by
  simp only [silentSet, List.mem_map, List.mem_filter, decide_eq_true_eq]
  constructor
  · rintro ⟨e, ⟨he, hs⟩, rfl⟩
    exact ⟨e, he, rfl, hs⟩
  · rintro ⟨e, he, rfl, hs⟩
    exact ⟨e, ⟨he, hs⟩, rfl⟩

theorem length_statusParcel_body (own : Station) (r : LapReport) (a : AlarmSet)
    (last : Option LastRefusal) : (statusParcel own r a last).body.length = 28 := by
  cases last <;> rfl

theorem exec_lapStart {s : State} (hhigh : s.resetHeld = false) (h : s.sts.lapDue = true) :
    exec .lapStart s = .next (rebuildRow (offerStatus (formReport s))) := by
  rw [exec_of_running (i := .lapStart) (f := takeLapStart) (fun _ => rfl) hhigh]
  exact congrArg _ (if_pos h)

/-- The transmit queue after the STATUS of a lap is offered (R15, R202). -/
theorem offerStatus_eq (s : State) :
    offerStatus s =
      if s.straps.sn ≠ 0 ∧ s.lnk.txq.length < 8 then s.txAdd (statusOf s) else s := by
  unfold offerStatus
  have : (!mute s.straps && s.txFree) = decide (s.straps.sn ≠ 0 ∧ s.lnk.txq.length < 8) := by
    rw [not_mute_eq, Bool.decide_and]
    rfl
  simp only [this, decide_eq_true_eq]

/-- The status row after a rebuild, and all that it leaves (R205). -/
theorem rebuildRow_text (s : State) :
    (s.straps.srow = true → (rebuildRow s).cpl = { s.cpl with statusReq := true } ∧
      (rebuildRow s).sts.text = statusText (rebuildRow s) ∧
      (rebuildRow s).sts.text.length = cols s.straps) ∧
    (s.straps.srow = false → (rebuildRow s).cpl = s.cpl ∧ (rebuildRow s).sts.text = s.sts.text) := by
  refine ⟨fun h => ?_, fun h => ?_⟩
  · rw [rebuildRow_of_row h]
    exact ⟨rfl, rfl, length_statusText s⟩
  · rw [rebuildRow_of_no_row h]
    exact ⟨rfl, rfl⟩

theorem rebuildRow_sts (s : State) :
    (rebuildRow s).sts = { s.sts with text := (rebuildRow s).sts.text } := by
  unfold rebuildRow
  split <;> rfl

theorem offerStatus_sts (s : State) : (offerStatus s).sts = s.sts :=
  read_of_frame State.sts (offerStatus_frame s) rfl

/-- Settles O54. -/
theorem lapStartReports : Obligations.LapStartReports := by
  intro s hhigh hdue
  have hexec := exec_lapStart hhigh hdue
  have hsts : (rebuildRow (offerStatus (formReport s))).sts =
      { (formReport s).sts with text := (rebuildRow (offerStatus (formReport s))).sts.text } := by
    rw [rebuildRow_sts, offerStatus_sts]
  have hlnk : (rebuildRow (offerStatus (formReport s))).lnk = (offerStatus (formReport s)).lnk :=
    read_of_frame State.lnk (rebuildRow_frame _) rfl
  have hcpl : (offerStatus (formReport s)).cpl = s.cpl :=
    read_of_frame State.cpl (offerStatus_frame _) rfl
  have hstraps : (offerStatus (formReport s)).straps = s.straps :=
    read_of_frame State.straps (offerStatus_frame _) rfl
  have htext : (offerStatus (formReport s)).sts.text = s.sts.text := by
    rw [offerStatus_sts]
    rfl
  obtain ⟨hrow, hnorow⟩ := rebuildRow_text (offerStatus (formReport s))
  rw [hcpl, hstraps] at hrow hnorow
  have hreport : (rebuildRow (offerStatus (formReport s))).sts.report = lapReport s := by
    rw [hsts]
    rfl
  refine ⟨_, hexec, ?_⟩
  rw [hreport]
  refine ⟨?_, rfl, ?_, rfl, ?_, ?_, ?_, ?_, rfl, fun n => mem_silentSet, fun state count hmem => ?_, hsts,
    fun hsn hroom => ?_, fun h => ?_, hrow, ?_, ?_⟩
  · simp only [lapReport, snapshot, List.map_cons, List.map_nil, hold16_toNat]
  · simp [lapReport, lapAlarms]
  · simp [lapReport, lapAlarms]
  · exact decide_eq_true_iff.trans (stateCount_pos_iff _ _)
  · exact decide_eq_true_iff.trans (hold16_ne_zero_iff _)
  · exact decide_eq_true_iff.trans (hold16_ne_zero_iff _)
  · simp only [List.mem_cons, Prod.mk.injEq, List.not_mem_nil, or_false] at hmem
    obtain ⟨rfl, rfl⟩ | ⟨rfl, rfl⟩ | ⟨rfl, rfl⟩ := hmem <;> exact hold8_toNat _
  · have hsent : (rebuildRow (offerStatus (formReport s))).lnk.txq =
        s.lnk.txq ++ [statusOf (formReport s)] := by
      rw [hlnk, offerStatus_eq, if_pos ⟨hsn, hroom⟩]
      rfl
    exact ⟨hsent, _, hsent, rfl, rfl, rfl, rfl, length_statusParcel_body _ _ _ _⟩
  · rw [hlnk, offerStatus_eq, if_neg]
    · rfl
    · rintro ⟨hsn, hroom⟩
      obtain h | h := h
      · exact hsn h
      · exact absurd hroom (not_lt.mpr h)
  · intro h
    obtain ⟨hc, ht⟩ := hnorow h
    exact ⟨hc, ht.trans htext⟩
  · have htxq : (rebuildRow (offerStatus (formReport s))).lnk =
        { s.lnk with txq := (rebuildRow (offerStatus (formReport s))).lnk.txq } := by
      rw [hlnk, offerStatus_eq]
      split <;> rfl
    have hbase (c : Cpl) (x : Sts) :
        { offerStatus (formReport s) with cpl := c, sts := x } =
          { s with lnk := (offerStatus (formReport s)).lnk, cpl := c, sts := x } := by
      rw [offerStatus_frame]
      rfl
    exact (rebuildRow_frame _).trans ((hbase _ _).trans
      (congrArg (fun l => { s with
          lnk := l
          cpl := (rebuildRow (offerStatus (formReport s))).cpl
          sts := (rebuildRow (offerStatus (formReport s))).sts })
        (hlnk.symm.trans htxq)))

end Sys2Proof.Machine

/-! PROOFS. The directory's expiries and its apply of an intake entry (spec/04 sections 4.2 to 4.7). -/

namespace Sys2Proof.Machine

/-! ## The rest of the refresh pass (R70) -/

/-- What an entry that stays becomes in the pass, with `n` parcels in the transmit queue at its turn. -/
def State.handled (s : State) (n : Nat) (e : RefreshEntry) : RefreshEntry :=
  if s.offers e = true then
    { e with
      second := e.second || decide (e.state ≠ .waiting)
      state := if n < 8 then .sent (s.lnk.sweep + 256) else .waiting
      inPass := false }
  else { e with inPass := false }

/-- The state after an entry that stays has had its turn. -/
def State.offered (s : State) (e : RefreshEntry) : State :=
  if s.offers e = true ∧ s.lnk.txq.length < 8 then s.txAdd (refreshParcel s.own e.target e.key) else s

theorem RefreshEntry.eta_inPass {e : RefreshEntry} {b : Bool} (h : e.inPass = b) :
    { e with inPass := b } = e := by
  subst h
  rfl

theorem txFree_iff {s : State} : s.txFree = true ↔ s.lnk.txq.length < 8 := decide_eq_true_iff

theorem handleRefresh_eq {e : RefreshEntry} (s : State) (h : e.inPass = true) :
    handleRefresh e s =
      if s.givesUp e then (none, s.tallyRefreshFail)
      else (some (s.handled s.lnk.txq.length e), s.offered e) := by
  have hfree : s.txFree = decide (s.lnk.txq.length < 8) := rfl
  unfold handleRefresh State.givesUp State.handled State.offered State.offers deadlineReached
  cases hs : e.state with
  | waiting =>
    by_cases hroom : s.lnk.txq.length < 8 <;> simp [h, hs, hfree, hroom, State.now]
  | sent due =>
    by_cases hr : reached s.lnk.sweep due = true
    · by_cases hsecond : e.second = true
      · simp [h, hr, hsecond, State.now]
      · by_cases hroom : s.lnk.txq.length < 8 <;> simp [h, hr, hsecond, hfree, hroom, State.now]
    · simp [h, hr, State.now]

theorem refreshPass_true_cons (e : RefreshEntry) (l : List RefreshEntry) (s : State) :
    refreshPass true (e :: l) s =
      if s.givesUp e then refreshPass true l s.tallyRefreshFail
      else (s.handled s.lnk.txq.length e :: (refreshPass true l (s.offered e)).1,
        (refreshPass true l (s.offered e)).2) := by
  rw [refreshPass]
  by_cases hp : e.inPass = true
  · rw [if_neg (by simp [hp]), if_neg (by simp), handleRefresh_eq s hp]
    by_cases hup : s.givesUp e = true
    · rw [if_pos hup, if_pos hup]
      rfl
    · rw [if_neg hup, if_neg hup]
      rfl
  · have hp := Bool.eq_false_of_not_eq_true hp
    have hoffers : s.offers e = false := by simp [State.offers, hp]
    rw [if_pos (by simp [hp]), if_neg (by simp [State.givesUp, hp])]
    simp only [State.handled, State.offered, hoffers, Bool.false_eq_true, if_false, false_and,
      RefreshEntry.eta_inPass hp]

/-- A change of the transmit queue and of the count of failed requests alone. -/
def State.withPass (s : State) (q : List Parcel) (fails : BitVec 16) : State :=
  { s with
    lnk := { s.lnk with txq := q }
    sts := { s.sts with tallies := { s.sts.tallies with refreshFail := fails } } }

/-- What the pass leaves of a list of requests, and in the state. -/
structure PassDone (s : State) (l : List RefreshEntry) (r : List RefreshEntry × State) : Prop where
  txq : r.2.lnk.txq =
    s.lnk.txq ++ ((l.filter s.offers).take (8 - s.lnk.txq.length)).map
      fun e => refreshParcel s.own e.target e.key
  keys : r.1.map RefreshEntry.key = (l.filter fun e => !s.givesUp e).map RefreshEntry.key
  entry : ∀ (n : Nat) (e : RefreshEntry), l[n]? = some e → s.givesUp e = false →
    r.1[((l.take n).filter fun x => !s.givesUp x).length]? =
      some (s.handled (s.lnk.txq.length + ((l.take n).filter s.offers).length) e)
  fails : r.2.sts.tallies.refreshFail.toNat =
    min 65535 (s.sts.tallies.refreshFail.toNat + (l.filter s.givesUp).length)
  frame : r.2 = s.withPass r.2.lnk.txq r.2.sts.tallies.refreshFail

theorem offers_of_givesUp {s : State} {e : RefreshEntry} (h : s.givesUp e = true) :
    s.offers e = false := by
  simp only [State.givesUp, Bool.and_eq_true] at h
  obtain ⟨⟨-, hd⟩, hsecond⟩ := h
  have hs : e.state ≠ .waiting := fun hw => by simp [deadlineReached, hw] at hd
  simp [State.offers, hs, hsecond]

theorem PassDone.giveUp {s : State} {e : RefreshEntry} {l : List RefreshEntry}
    {r : List RefreshEntry × State} (hup : s.givesUp e = true) (h : PassDone s.tallyRefreshFail l r) :
    PassDone s (e :: l) r := by
  have hoffers := offers_of_givesUp hup
  refine ⟨?_, ?_, fun n x hx hstay => ?_, ?_, h.frame⟩
  · rw [List.filter_cons_of_neg (by simp [hoffers])]
    exact h.txq
  · rw [List.filter_cons_of_neg (by simp [hup])]
    exact h.keys
  · cases n with
    | zero =>
      obtain rfl := Option.some.inj hx
      rw [hup] at hstay
      cases hstay
    | succ n =>
      rw [List.take_succ_cons, List.filter_cons_of_neg (by simp [hup]),
        List.filter_cons_of_neg (by simp [hoffers])]
      exact h.entry n x hx hstay
  · have hfails := h.fails
    have htally : s.tallyRefreshFail.sts.tallies.refreshFail.toNat =
        min 65535 (s.sts.tallies.refreshFail.toNat + 1) := bumpTally_toNat _
    rw [List.filter_cons_of_pos hup, List.length_cons, hfails, htally]
    show min 65535 (_ + (l.filter s.givesUp).length) = _
    omega

theorem PassDone.stay {s : State} {e : RefreshEntry} {l : List RefreshEntry}
    {r : List RefreshEntry × State} (hup : s.givesUp e = false) (h : PassDone (s.offered e) l r) :
    PassDone s (e :: l) (s.handled s.lnk.txq.length e :: r.1, r.2) := by
  have hsame (x : RefreshEntry) : (s.offered e).offers x = s.offers x := by
    unfold State.offered
    split <;> rfl
  have hgive (x : RefreshEntry) : (s.offered e).givesUp x = s.givesUp x := by
    unfold State.offered
    split <;> rfl
  have hhandled (n : Nat) (x : RefreshEntry) : (s.offered e).handled n x = s.handled n x := by
    unfold State.offered
    split <;> rfl
  have hown : (s.offered e).own = s.own := by
    unfold State.offered
    split <;> rfl
  have hsts : (s.offered e).sts = s.sts := by
    unfold State.offered
    split <;> rfl
  have hpass (q : List Parcel) (f : BitVec 16) : (s.offered e).withPass q f = s.withPass q f := by
    unfold State.offered
    split <;> rfl
  obtain ⟨htxq, hkeys, hentry, hfails, hframe⟩ := h
  simp only [funext hsame, funext hgive, hhandled, hown, hsts, hpass] at htxq hkeys hentry hfails hframe
  have hqueue : (s.offered e).lnk.txq = if s.offers e = true ∧ s.lnk.txq.length < 8 then
      s.lnk.txq ++ [refreshParcel s.own e.target e.key] else s.lnk.txq := by
    unfold State.offered
    split <;> rfl
  refine ⟨?_, ?_, fun n x hx hstay => ?_, ?_, hframe⟩
  · rw [htxq, hqueue]
    by_cases ho : s.offers e = true
    · rw [List.filter_cons_of_pos ho]
      by_cases hroom : s.lnk.txq.length < 8
      · rw [if_pos ⟨ho, hroom⟩, List.length_append, List.length_singleton,
          (by omega : 8 - s.lnk.txq.length = 8 - (s.lnk.txq.length + 1) + 1), List.take_succ_cons,
          List.map_cons, List.append_assoc, List.singleton_append]
      · rw [if_neg (fun h => hroom h.2), Nat.sub_eq_zero_of_le (not_lt.mp hroom), List.take_zero,
          List.take_zero]
    · rw [List.filter_cons_of_neg ho, if_neg (fun h => ho h.1)]
  · rw [List.filter_cons_of_pos (by simp [hup]), List.map_cons, List.map_cons, hkeys]
    congr 1
    unfold State.handled
    split <;> rfl
  · cases n with
    | zero =>
      obtain rfl := Option.some.inj hx
      rfl
    | succ n =>
      rw [List.take_succ_cons, List.filter_cons_of_pos (by simp [hup]), List.length_cons,
        List.getElem?_cons_succ, hentry n x hx hstay, hqueue]
      by_cases ho : s.offers e = true
      · rw [List.filter_cons_of_pos ho, List.length_cons]
        by_cases hroom : s.lnk.txq.length < 8
        · rw [if_pos ⟨ho, hroom⟩, List.length_append, List.length_singleton, Nat.add_assoc,
            Nat.add_comm 1]
        · rw [if_neg (fun h => hroom h.2)]
          unfold State.handled
          rw [if_neg (by omega : ¬ s.lnk.txq.length + ((l.take n).filter s.offers).length < 8),
            if_neg (by omega : ¬ s.lnk.txq.length + (((l.take n).filter s.offers).length + 1) < 8)]
      · rw [List.filter_cons_of_neg ho, if_neg (fun h => ho h.1)]
  · rw [List.filter_cons_of_neg (by simp [hup])]
    exact hfails

theorem refreshPass_true_done (l : List RefreshEntry) (s : State) :
    PassDone s l (refreshPass true l s) := by
  induction l generalizing s with
  | nil =>
    refine ⟨by simp [refreshPass], rfl, fun n e he => ?_, ?_, rfl⟩
    · simp at he
    · have := s.sts.tallies.refreshFail.isLt
      simp only [refreshPass, List.filter_nil, List.length_nil]
      omega
  | cons e l ih =>
    rw [refreshPass_true_cons]
    split
    · next hup => exact PassDone.giveUp hup (ih _)
    · next hup => exact PassDone.stay (Bool.eq_false_of_not_eq_true hup) (ih _)

theorem expireStale_eq (now : Sweep) (r : Record) :
    expireStale now r =
      if r.state = .live ∧ (∃ due, r.deadline = some due ∧ (now - due).toNat < 2 ^ 31) then
        { r with state := .stale, deadline := none }
      else r := by
  have : r.deadline.any (reached now) = true ↔
      ∃ due, r.deadline = some due ∧ (now - due).toNat < 2 ^ 31 := by
    cases r.deadline <;> simp [reached_iff]
  simp only [expireStale, this]

/-- Settles O22. -/
theorem sweepStartExpiries : Obligations.SweepStartExpiries := by
  refine ⟨fun s hhigh => ?_, fun s hhigh => ?_⟩
  · refine ⟨_, exec_of_running (i := .staleExpiry) (fun _ => rfl) hhigh, fun k => ?_, rfl⟩
    refine (Tab.look_mapValues _ _ _).trans ?_
    simp only [expireStale_eq]
    rfl
  · have hdone := refreshPass_true_done s.dir.refresh s
    refine ⟨_, exec_of_running (i := .refreshDeadline) (f := runRefreshPass true) (fun _ => rfl) hhigh,
      hdone.txq, hdone.keys, hdone.entry, hdone.fails, ?_⟩
    exact congrArg (State.modDir · fun d => { d with refresh := (refreshPass true s.dir.refresh s).1 })
      hdone.frame

/-! ## What an apply makes of a record (R57 to R65) -/

theorem Item.ofCode_code (i : Item) : Item.ofCode i.code = some i := by cases i <;> rfl

theorem Item.code_of_ofCode {c : Nat} {i : Item} (h : Item.ofCode c = some i) : i.code = c := by
  have hc : c < 12 := (Item.ofCode_isSome c).mp (by rw [h]; rfl)
  interval_cases c <;> (cases h; rfl)

theorem Item.code_lt (i : Item) : i.code < 12 := by cases i <;> decide

theorem mem_keys_iff {α : Type} {t : Tab α} {k : Nat} :
    k ∈ t.map Prod.fst ↔ (Tab.look k t).isSome = true := by
  induction t with
  | nil => simp
  | cons e t ih =>
    obtain ⟨i, v⟩ := e
    rw [List.map_cons, List.mem_cons, ih, Tab.look]
    by_cases h : i = k
    · simp [h]
    · simp [h, Ne.symm h]

theorem look_storeCoded (items : Tab Stored) (e : Nat × Received) (i : Item) :
    Tab.look i.code (storeCoded items e) =
      if e.1 = i.code then some (storeItem i e.2) else Tab.look i.code items := by
  unfold storeCoded
  split
  · next j hj =>
    rw [Tab.look_insert]
    by_cases h : e.1 = i.code
    · rw [if_pos h.symm, if_pos h]
      rw [h, Item.ofCode_code] at hj
      rw [Option.some.inj hj]
    · rw [if_neg (Ne.symm h), if_neg h]
  · next hj =>
    rw [if_neg]
    intro h
    rw [h, Item.ofCode_code] at hj
    cases hj

/-- The received items stand over those stored (R58). -/
theorem look_storeItems {received : Tab Received} (hr : Tab.rising received = true) (items : Tab Stored)
    (i : Item) :
    Tab.look i.code (storeItems received items) =
      ((Tab.look i.code received).map (storeItem i)).or (Tab.look i.code items) := by
  unfold storeItems
  induction received generalizing items with
  | nil => rfl
  | cons e t ih =>
    obtain ⟨k, v⟩ := e
    obtain ⟨habove, ht⟩ := (Tab.rising_cons k v t).mp hr
    rw [List.foldl_cons, ih ht, look_storeCoded, Tab.look]
    by_cases h : k = i.code
    · have hnone : Tab.look i.code t = none := by
        cases hl : Tab.look i.code t with
        | none => rfl
        | some x => exact absurd (habove _ (Tab.mem_of_look hl)) (by rw [h]; exact lt_irrefl _)
      rw [hnone, if_pos h, if_pos h]
      rfl
    · rw [if_neg h, if_neg h]

theorem look_foldl_erase {α : Type} (l : List Nat) (t : Tab α) (k : Nat) :
    Tab.look k (l.foldl (fun t c => Tab.erase c t) t) = if k ∈ l then none else Tab.look k t := by
  induction l generalizing t with
  | nil => simp
  | cons c l ih =>
    rw [List.foldl_cons, ih, Tab.look_erase]
    by_cases hc : k = c <;> by_cases hl : k ∈ l <;> simp [hc, hl]

/-- An apply before an end of image: the items taken over a record with an image in progress and a
state. -/
def plainApply (e : IntakeEntry) (r : Record) (image : Option Image) (state : RecordState)
    (asked counted : Bool) : Applied :=
  { record := takeItems e { r with image := image, state := state }
    touched := entryCodes e
    asked := asked
    gap := counted }

/-- The record after an apply, its deadline aside. -/
def appliedRecord (e : IntakeEntry) (r : Record) (image : Option Image) (state : RecordState) : Record :=
  { r with
    lastSeq := some e.lastSeq
    items := (imageLost e image).foldl (fun t c => Tab.erase c t) (storeItems e.items r.items)
    image := if e.imageEnd then none else image.map (seeCodes (entryCodes e))
    state := if e.imageEnd = true ∧ image.any (fun i => !i.gapped) = true then .live else state }

theorem mem_seeCodes {codes : List Nat} {i : Image} {c : Nat} :
    c ∈ (seeCodes codes i).seen ↔ c ∈ i.seen ∨ c ∈ codes := by
  rw [seeCodes, (NatSet.foldl_insert codes i.seen).1, or_comm]

theorem endImage_plainApply (e : IntakeEntry) (r : Record) (image : Option Image) (state : RecordState)
    (asked counted : Bool) :
    endImage e (plainApply e r image state asked counted) =
      { record := appliedRecord e r image state
        touched := entryCodes e ++ imageLost e image
        asked := asked
        gap := counted } := by
  cases image with
  | none =>
    have hlost : imageLost e none = [] := rfl
    simp [endImage, plainApply, takeItems, appliedRecord, hlost]
  | some i =>
    by_cases hend : e.imageEnd = true
    · have hlost : imageLost e (some i) =
          itemCodes.filter fun c => !(seeCodes (entryCodes e) i).seen.contains c := by
        simp only [imageLost, hend, if_true]
        refine List.filter_congr fun c _ => ?_
        rw [Bool.eq_iff_iff]
        simp [mem_seeCodes, entryCodes]
      have hgapped : (seeCodes (entryCodes e) i).gapped = i.gapped := rfl
      simp only [endImage, plainApply, takeItems, appliedRecord, hlost, hend, hgapped, Option.map_some,
        if_true, true_and, Option.any_some]
      cases i.gapped <;> rfl
    · have hlost : imageLost e (some i) = [] := by simp [imageLost, hend]
      simp [endImage, plainApply, takeItems, appliedRecord, hlost, hend]

theorem look_appliedRecord {e : IntakeEntry} (hr : Tab.rising e.items = true) (r : Record)
    (image : Option Image) (state : RecordState) (i : Item) :
    Tab.look i.code (appliedRecord e r image state).items =
      ((Tab.look i.code e.items).map (storeItem i)).or
        (if i.code ∈ imageLost e image then none else Tab.look i.code r.items) := by
  have hlost : i.code ∈ imageLost e image → Tab.look i.code e.items = none := by
    intro h
    have hmem : i.code ∉ e.items.map Prod.fst := by
      unfold imageLost at h
      split at h
      · cases h
      · split at h
        · simp only [List.mem_filter, Bool.and_eq_true, decide_eq_true_eq] at h
          exact h.2.2
        · cases h
    rw [mem_keys_iff, Option.not_isSome_iff_eq_none] at hmem
    exact hmem
  show Tab.look i.code (List.foldl _ _ _) = _
  rw [look_foldl_erase, look_storeItems hr]
  cases hl : Tab.look i.code e.items with
  | some v =>
    rw [if_neg (fun h => by rw [hlost h] at hl; cases hl)]
    rfl
  | none => rfl

/-! ## What an apply leaves (R65, R69, R71 to R73) -/

/-- The record that an apply leaves in the directory. -/
def State.recordApplied (s : State) (e : IntakeEntry) (r : Record) (image : Option Image)
    (state : RecordState) : Record :=
  { appliedRecord e r image state with
    deadline := staleDeadline s.now s.lay.global.staleLimit (appliedRecord e r image state).state }

/-- The refresh requests after an apply's own request. -/
def State.asksAfter (s : State) (e : IntakeEntry) (asked : Bool) : List RefreshEntry :=
  if asked then s.refreshAsked e.key e.origin else s.dir.refresh

theorem commitApply_eq {s : State} {e : IntakeEntry} {r : Record} (hkey : r.key = e.key)
    (hsrc : r.source = some e.origin) (asked counted : Bool) (image : Option Image)
    (state : RecordState) :
    commitApply e.key (endImage e (plainApply e r image state asked counted)) s =
      { s with
        dir :=
          { records := (s.setRecord (s.recordApplied e r image state)).dir.records
            refresh :=
              if (s.recordApplied e r image state).state = .gapped then s.asksAfter e asked
              else (s.asksAfter e asked).filter fun x => decide (x.key ≠ e.key) }
        pnt := { s.pnt with
          queue := enqueueAll .ordinary
            (fieldsToPaint s.lay e.key (entryCodes e ++ imageLost e image)) s.pnt.queue }
        sts := if counted then s.countGap.sts else s.sts } := by
  have hask (x : Sts) : askRefresh e.key { s.setRecord (s.recordApplied e r image state) with sts := x } =
      { s.setRecord (s.recordApplied e r image state) with
        sts := x
        dir := { (s.setRecord (s.recordApplied e r image state)).dir with
          refresh := s.refreshAsked e.key e.origin } } := by
    refine askRefresh_eq ?_
    have hrec : (s.setRecord (s.recordApplied e r image state)).record? e.key =
        some (s.recordApplied e r image state) :=
      (State.record?_setRecord _ _ _).trans (if_pos hkey.symm)
    exact (congrArg (Option.bind · Record.source) hrec).trans hsrc
  have hcount : (if counted then (s.setRecord (s.recordApplied e r image state)).countGap
      else s.setRecord (s.recordApplied e r image state)) =
      { s.setRecord (s.recordApplied e r image state) with
        sts := if counted then s.countGap.sts else s.sts } := by
    cases counted <;> rfl
  have hleft : commitApply e.key
      { record := appliedRecord e r image state, touched := entryCodes e ++ imageLost e image,
        asked := asked, gap := counted } s =
      let u := if counted then (s.setRecord (s.recordApplied e r image state)).countGap
        else s.setRecord (s.recordApplied e r image state)
      let v := if asked then askRefresh e.key u else u
      (if (s.recordApplied e r image state).state = .gapped then v else dropRefresh e.key v).enqueue
        .ordinary (fieldsToPaint s.lay e.key (entryCodes e ++ imageLost e image)) := rfl
  rw [endImage_plainApply, hleft]
  dsimp only
  rw [hcount, hask]
  by_cases hgapped : (s.recordApplied e r image state).state = .gapped
  · simp only [hgapped, if_true]
    cases asked <;> rfl
  · simp only [hgapped, if_false]
    cases asked <;> rfl

theorem Tab.pairwise_keys {α : Type} {t : Tab α} (h : Tab.rising t = true) :
    (t.map Prod.fst).Pairwise (· < ·) := by
  induction t with
  | nil => exact List.Pairwise.nil
  | cons e t ih =>
    obtain ⟨habove, ht⟩ := (Tab.rising_cons e.1 e.2 t).mp h
    refine List.pairwise_cons.mpr ⟨fun k hk => ?_, ih ht⟩
    obtain ⟨x, hx, rfl⟩ := List.mem_map.mp hk
    exact habove x hx

theorem mem_fieldsToPaint {l : Lay} (h : Tab.rising l.fields = true) {k : Key} {touched : List Nat}
    {i : Nat} :
    i ∈ fieldsToPaint l k touched ↔
      ∃ f, Tab.look i l.fields = some f ∧ f.key = k ∧ follows touched f.selector = true := by
  simp only [fieldsToPaint, List.mem_map, List.mem_filter, Bool.and_eq_true, decide_eq_true_eq,
    Tab.look_eq_some_iff h]
  constructor
  · rintro ⟨e, ⟨he, hk, hf⟩, rfl⟩
    exact ⟨e.2, he, hk, hf⟩
  · rintro ⟨f, hf, hk, hfollow⟩
    exact ⟨(i, f), ⟨hf, hk, hfollow⟩, rfl⟩

theorem fieldsToPaint_pairwise {l : Lay} (h : Tab.rising l.fields = true) (k : Key)
    (touched : List Nat) : (fieldsToPaint l k touched).Pairwise (· < ·) :=
  Tab.pairwise_keys (Tab.rising_filter _ h)

theorem commitApply_applied {s : State} {e : IntakeEntry} {r : Record} (hm : s.recordsMatch)
    (hitems : Tab.rising e.items = true) (hr : s.record? e.key = some r)
    (hsrc : r.source = some e.origin) (rest : List IntakeEntry) (asked counted : Bool)
    (image : Option Image) (state : RecordState) :
    s.applied (commitApply e.key (endImage e (plainApply e r image state asked counted))
      (s.modInq fun _ => rest)) e r asked counted image state := by
  have hkey : r.key = e.key := recordsMatch_key hm hr
  have hfields := hm.1
  rw [commitApply_eq (s := s.modInq fun _ => rest) hkey hsrc]
  have hrecord (k : Key) : (s.setRecord (s.recordApplied e r image state)).record? k =
      if k = e.key then some (s.recordApplied e r image state) else s.record? k := by
    rw [State.record?_setRecord, show (s.recordApplied e r image state).key = e.key from hkey]
  have hpairwise := fieldsToPaint_pairwise hfields e.key (entryCodes e ++ imageLost e image)
  have hindices := enqueueAll_indices .ordinary (hpairwise.imp Nat.ne_of_lt) s.pnt.queue
  refine ⟨⟨s.recordApplied e r image state, (hrecord e.key).trans (if_pos rfl), fun i => ?_, rfl, ?_,
      fun i i' hi hi' => ?_, rfl, fun asks hasks => ?_⟩, fun k hk => (hrecord k).trans (if_neg hk),
    fun i => ?_, fun q hq => ?_, fun q hq hk => ?_, ?_, ?_, fun hc => ?_, fun hc hne => ?_, ?_⟩
  · refine (look_appliedRecord hitems r image state i).trans ?_
    cases Tab.look i.code e.items <;> rfl
  · show (if e.imageEnd then none else image.map (seeCodes (entryCodes e))) = none ↔ _
    split <;> simp_all
  · have hi' : (if e.imageEnd then none else image.map (seeCodes (entryCodes e))) = some i' := hi'
    rw [hi] at hi'
    split at hi'
    · cases hi'
    · obtain rfl := Option.some.inj hi'
      exact ⟨rfl, fun c => mem_seeCodes⟩
  · subst hasks
    rfl
  · exact (mem_enqueueAll _ _ _ _).trans (or_congr_right (mem_fieldsToPaint hfields))
  · exact (mem_of_mem_enqueueAll hq).imp_right And.right
  · exact mem_enqueueAll_of_mem hq (ordinary_rank_le hk)
  · show ((enqueueAll _ _ s.pnt.queue).take _).map _ = _
    rw [List.map_take, State.modInq_lay, hindices, ← List.length_map PaintReq.index, List.take_left']
    rfl
  · show List.Pairwise _ (((enqueueAll _ _ s.pnt.queue).drop _).map _)
    rw [List.map_drop, State.modInq_lay, hindices, ← List.length_map PaintReq.index, List.drop_left']
    · exact hpairwise.filter _
    · rfl
  · subst hc
    rfl
  · subst hc
    exact bump_of_ne_allOnes hne
  · cases counted <;> rfl

/-! ## INTAKE_TAKE -/

theorem takeHead_of_cons {s : State} {e : IntakeEntry} {rest : List IntakeEntry} (hq : s.inq = e :: rest)
    (hroom : s.pnt.queue.length < 64) : takeHead s = takeEntry e (s.modInq fun _ => rest) := by
  simp only [takeHead, hq]
  exact if_pos hroom

theorem exec_intakeTake {s : State} (hhigh : s.resetHeld = false) :
    exec .intakeTake s = .next (takeHead s) :=
  exec_of_running (i := .intakeTake) (f := takeHead) (fun _ => rfl) hhigh

theorem takeEntry_of_source {s : State} {e : IntakeEntry} {r : Record} (hr : s.record? e.key = some r)
    (hsrc : r.source = some e.origin) :
    takeEntry e s = (applyEntry e r).elim s.tallyDuplicate fun a => commitApply e.key a s := by
  simp only [takeEntry, hr, hsrc, if_true]
  cases applyEntry e r <;> rfl

theorem takeEntry_of_other {s : State} {e : IntakeEntry}
    (h : ∀ r, s.record? e.key = some r → r.source ≠ some e.origin) : takeEntry e s = s := by
  unfold takeEntry
  split
  · rfl
  · next r hr => exact if_neg (h r hr)

theorem applyEntry_of_start {e : IntakeEntry} {r : Record} (h : e.imageStart = true) :
    applyEntry e r = some (endImage e (plainApply e r (some { seen := [], gapped := e.gap })
      (if e.gap then .gapped else r.state) e.gap e.gap)) := by
  rw [applyEntry, if_pos h]
  rfl

theorem applyEntry_of_first {e : IntakeEntry} {r : Record} (h : e.imageStart = false)
    (hseq : r.lastSeq = none) :
    applyEntry e r = some (endImage e (plainApply e r r.image .gapped true false)) := by
  rw [applyEntry, if_neg (by simp [h])]
  simp only [hseq]
  rfl

theorem entryClass_eq {e : IntakeEntry} {l : Seq}
    (hnew : e.firstSeq - l ≠ 0 ∧ (e.firstSeq - l).toNat < 32768) :
    entryClass e l = if e.gap || decide (e.firstSeq ≠ l + 1) then .gap else .inSequence := by
  obtain ⟨hne, hlt⟩ := hnew
  have hne : (e.firstSeq - l).toNat ≠ 0 := fun h => hne (BitVec.eq_of_toNat_eq h)
  have hone : (e.firstSeq - l).toNat = 1 ↔ e.firstSeq = l + 1 := by
    rw [← sub_eq_iff_eq_add', ← BitVec.toNat_inj]
    rfl
  unfold entryClass seqClass
  rw [if_neg (by omega)]
  by_cases h1 : e.firstSeq = l + 1
  · rw [if_pos (hone.mpr h1)]
    simp [h1]
  · rw [if_neg (mt hone.mp h1), decide_eq_true h1, Bool.or_true]
    rfl

theorem applyEntry_of_seq {e : IntakeEntry} {r : Record} {l : Seq} (h : e.imageStart = false)
    (hseq : r.lastSeq = some l) (hnew : e.firstSeq - l ≠ 0 ∧ (e.firstSeq - l).toNat < 32768) :
    applyEntry e r =
      if e.gap || decide (e.firstSeq ≠ l + 1) then
        some (endImage e (plainApply e r (r.image.map fun i => { i with gapped := true }) .gapped true true))
      else
        some (endImage e (plainApply e r r.image (if r.state = .stale then .live else r.state) false
          false)) := by
  rw [applyEntry, if_neg (by simp [h])]
  simp only [hseq, entryClass_eq hnew]
  by_cases hgap : (e.gap || decide (e.firstSeq ≠ l + 1)) = true
  · rw [if_pos hgap, if_pos hgap]
    rfl
  · rw [if_neg hgap, if_neg hgap]
    rfl

theorem applyEntry_of_duplicate {e : IntakeEntry} {r : Record} {l : Seq} (h : e.imageStart = false)
    (hseq : r.lastSeq = some l) (hold : e.firstSeq - l = 0 ∨ 32768 ≤ (e.firstSeq - l).toNat) :
    applyEntry e r = none := by
  have hclass : seqClass (e.firstSeq - l).toNat = .duplicate :=
    seqClass_duplicate.mpr (hold.imp_left fun h => by rw [h]; rfl)
  rw [applyEntry, if_neg (by simp [h])]
  simp only [hseq, entryClass, hclass]

/-- An entry of the record's source that is applied, taken from the head of the queue. -/
theorem intakeTake_applied {s : State} {e : IntakeEntry} {rest : List IntakeEntry} {r : Record}
    (hhigh : s.resetHeld = false) (hm : s.recordsMatch) (hb : s.buffersSound) (hq : s.inq = e :: rest)
    (hroom : s.pnt.queue.length < 64) (hr : s.record? e.key = some r) (hsrc : r.source = some e.origin)
    {image : Option Image} {state : RecordState} {asked counted : Bool}
    (ha : applyEntry e r = some (endImage e (plainApply e r image state asked counted))) :
    ∃ t, exec .intakeTake s = .next t ∧ t.inq = rest ∧ s.applied t e r asked counted image state := by
  obtain ⟨-, -, -, -, -, hitems⟩ := hb
  have hmem : e ∈ s.inq := by
    rw [hq]
    exact List.mem_cons_self
  refine ⟨_, exec_intakeTake hhigh, ?_⟩
  rw [takeHead_of_cons hq hroom, takeEntry_of_source (s := s.modInq fun _ => rest) hr hsrc, ha,
    Option.elim_some]
  refine ⟨?_, commitApply_applied hm (hitems e hmem) hr hsrc rest asked counted image state⟩
  exact read_of_frame State.inq (commitApply_frame _ _ _) rfl

/-- Settles O20. -/
theorem inSequenceEntryApplies : Obligations.InSequenceEntryApplies := by
  refine ⟨fun s e rest r gap hhigh hm hb hq hroom hr hsrc hstart hnew hgap => ?_,
    fun s e rest r l hhigh hq hroom hr hsrc hstart hseq hold => ?_,
    fun s e rest hhigh hq hroom hother => ?_, fun s hhigh hidle => ?_⟩
  · cases hseq : r.lastSeq with
    | none =>
      obtain ⟨t, hexec, hinq, happlied⟩ :=
        intakeTake_applied hhigh hm hb hq hroom hr hsrc (applyEntry_of_first hstart hseq)
      refine ⟨t, hexec, hinq, fun _ => happlied, fun h => absurd rfl h, fun h => ?_⟩
      rw [hgap, hseq] at h
      cases h
    | some l =>
      have happly := applyEntry_of_seq hstart hseq (hnew l hseq)
      have hg : gap = (e.gap || decide (e.firstSeq ≠ l + 1)) := by rw [hgap, hseq]; rfl
      rw [← hg] at happly
      cases gap with
      | true =>
        obtain ⟨t, hexec, hinq, happlied⟩ := intakeTake_applied hhigh hm hb hq hroom hr hsrc happly
        exact ⟨t, hexec, hinq, nofun, nofun, fun _ => happlied⟩
      | false =>
        obtain ⟨t, hexec, hinq, happlied⟩ := intakeTake_applied hhigh hm hb hq hroom hr hsrc happly
        exact ⟨t, hexec, hinq, nofun, fun _ _ => happlied, nofun⟩
  · refine ⟨_, exec_intakeTake hhigh, ?_⟩
    rw [takeHead_of_cons hq hroom, takeEntry_of_source (s := s.modInq fun _ => rest) hr hsrc,
      applyEntry_of_duplicate hstart hseq hold]
    exact ⟨bumpTally_toNat _, rfl⟩
  · rw [exec_intakeTake hhigh, takeHead_of_cons hq hroom,
      takeEntry_of_other (s := s.modInq fun _ => rest) hother]
    rfl
  · rw [exec_intakeTake hhigh]
    unfold takeHead
    split
    · rfl
    · next e t hq =>
      obtain h | h := hidle
      · exact congrArg _ (if_neg (not_lt.mpr h))
      · rw [h] at hq
        cases hq

/-- Settles O21. -/
theorem wholeImageMakesLive : Obligations.WholeImageMakesLive := by
  refine ⟨fun s e rest r hhigh hm hb hq hroom hr hsrc hstart =>
      intakeTake_applied hhigh hm hb hq hroom hr hsrc (applyEntry_of_start hstart),
    fun s e rest r hhigh hm hb hq hroom hr hsrc hstart hend hgap => ?_⟩
  have happly := applyEntry_of_start (r := r) hstart
  rw [hgap] at happly
  obtain ⟨t, hexec, hinq, ⟨r', hr', hitems, hstate, himage, -, hall, hrefresh⟩, hothers, -⟩ :=
    intakeTake_applied hhigh hm hb hq hroom hr hsrc happly
  have hlive : r'.state = .live := hstate.trans (if_pos ⟨hend, rfl⟩)
  refine ⟨t, r', hexec, hinq, hr', fun i => ?_, hlive, himage.mpr (.inr hend), ?_, ?_, fun x hx => ?_,
    hothers⟩
  · rw [hitems]
    cases hl : Tab.look i.code e.items with
    | some v => rfl
    | none =>
      refine if_pos ?_
      have hmem : i.code ∉ e.items.map Prod.fst := by
        rw [mem_keys_iff, hl]
        exact Bool.false_ne_true
      simp only [imageLost, hend, if_true, List.mem_filter, List.mem_range, Item.code_lt, true_and,
        List.not_mem_nil, not_false_eq_true, decide_true, Bool.true_and, decide_eq_true_eq]
      exact hmem
  · rw [hall]
  · have hdeadline := congrArg Record.deadline hall
    simp only [hlive, true_and] at hdeadline
    exact hdeadline
  · have hlist := hrefresh _ rfl
    rw [hlive, if_neg (by decide)] at hlist
    rw [hlist] at hx
    exact of_decide_eq_true (List.mem_filter.mp hx).2

end Sys2Proof.Machine

/-! PROOFS. The Painter's service and its commits (spec/07 sections 7.3 to 7.5). -/

namespace Sys2Proof.Machine

/-! ## The report of an initial paint (R143, R145) -/

/-- The compose set of window w holds an index. -/
def State.composes (s : State) (w i : Nat) : Prop :=
  ∃ set, (s.window w).compose = some (.fields set) ∧ i ∈ set

theorem any_holds_iff {i : Nat} {c : Option Compose} :
    c.any (Compose.holds i) = true ↔ ∃ set, c = some (.fields set) ∧ i ∈ set := by
  obtain _ | _ | set := c <;> simp [Compose.holds]

theorem State.composes.mem {s : State} {w i : Nat} (h : s.composes w i) :
    (w, s.window w) ∈ s.win := by
  obtain ⟨set, hset, -⟩ := h
  refine Tab.mem_of_get fun hd => ?_
  rw [State.window, hd] at hset
  cases hset

theorem State.composingOf_none {s : State} {i : Nat} (h : s.composingOf i = none) (w : Nat) :
    ¬ s.composes w i := by
  intro hc
  have hno := List.find?_eq_none.mp (Option.map_eq_none_iff.mp h) _ hc.mem
  exact hno (any_holds_iff.mpr hc)

/-- The window reported to is the first whose compose set holds the index. -/
theorem State.composingOf_some {s : State} (hr : Tab.rising s.win = true) {i w : Nat}
    (h : s.composingOf i = some w) : s.composes w i ∧ ∀ u, u < w → ¬ s.composes u i := by
  obtain ⟨⟨w', v⟩, he, rfl⟩ := Option.map_eq_some_iff.mp h
  obtain ⟨hp, before, after, hwin, hnone⟩ := List.find?_eq_some_iff_append.mp he
  have hv : s.window w' = v := State.window_of_mem hr (e := (w', v)) (by rw [hwin]; simp)
  refine ⟨any_holds_iff.mp (hv.symm ▸ hp), fun u hu hc => ?_⟩
  have hmem := hc.mem
  rw [hwin, List.mem_append, List.mem_cons] at hmem
  obtain hmem | hmem | hmem := hmem
  · simpa [any_holds_iff.mpr hc] using hnone _ hmem
  · obtain ⟨rfl, -⟩ := Prod.mk.injEq .. ▸ hmem
    exact lt_irrefl _ hu
  · have hpair := Tab.pairwise_keys hr
    rw [hwin, List.map_append, List.map_cons, List.pairwise_append] at hpair
    obtain ⟨-, hpair, -⟩ := hpair
    exact lt_asymm hu ((List.pairwise_cons.mp hpair).1 _ (List.mem_map_of_mem hmem))

/-- The report of an index to window w, which composes it. -/
theorem initialDone_window {s : State} {i w : Nat} {set : List Nat} (h : s.composingOf i = some w)
    (hset : (s.window w).compose = some (.fields set)) (u : Nat) :
    (initialDone i s).window u =
      if u = w then
        if ∀ j ∈ set, j = i then finishCompose (s.window w)
        else { s.window w with compose := some (.fields (set.filter fun j => decide (j ≠ i))) }
      else s.window u := by
  have hdone : initialDone i s = settleCompose w (s.modWindow w fun v =>
      { v with compose := v.compose.map (Compose.without i) }) := by rw [initialDone, h]
  have hw : (s.modWindow w fun v => { v with compose := v.compose.map (Compose.without i) }).window w =
      { s.window w with compose := some (.fields (set.filter fun j => decide (j ≠ i))) } := by
    rw [State.window_modWindow_self, hset]
    rfl
  have hempty : set.filter (fun j => decide (j ≠ i)) = [] ↔ ∀ j ∈ set, j = i := by
    simp [List.filter_eq_nil_iff]
  rw [hdone]
  by_cases hall : ∀ j ∈ set, j = i
  · rw [settleCompose_of_eq (by rw [hw, hempty.mpr hall]), State.window_modWindow, hw,
      State.window_modWindow, if_pos hall]
    by_cases hu : u = w <;> simp only [hu, if_true, if_false]
    rfl
  · rw [settleCompose_of_ne (by rw [hw]; simpa [hempty] using hall), if_neg hall]
    by_cases hu : u = w
    · rw [if_pos hu, hu, hw]
    · rw [if_neg hu, State.window_modWindow, if_neg hu]

theorem initialDone_of_none {s : State} {i : Nat} (h : s.composingOf i = none) :
    initialDone i s = s := by rw [initialDone, h]

/-- The report leaves every window that does not compose the index. -/
theorem initialDone_window_of_not {s : State} (hr : Tab.rising s.win = true) {i u : Nat}
    (hu : ¬ s.composes u i) : (initialDone i s).window u = s.window u := by
  cases h : s.composingOf i with
  | none => rw [initialDone_of_none h]
  | some w =>
    obtain ⟨hw, -⟩ := State.composingOf_some hr h
    obtain ⟨set, hset, -⟩ := id hw
    rw [initialDone_window h hset, if_neg fun huw : u = w => hu (huw ▸ hw)]

theorem initialDone_reported {s : State} (hr : Tab.rising s.win = true) (i : Nat) :
    s.initialReported (initialDone i s) i := by
  refine ⟨fun w hw => initialDone_window_of_not hr fun ⟨set, hset, hi⟩ => hw set hset hi,
    fun w set hset hi hfirst => ?_⟩
  have hcomp : s.composingOf i = some w := by
    cases h : s.composingOf i with
    | none => exact absurd ⟨set, hset, hi⟩ (State.composingOf_none h w)
    | some w' =>
      obtain ⟨⟨l, hl, hil⟩, hfirst'⟩ := State.composingOf_some hr h
      have h1 : ¬ w' < w := fun hlt => hfirst w' hlt l hl hil
      have h2 : ¬ w < w' := fun hlt => hfirst' w hlt ⟨set, hset, hi⟩
      rw [show w' = w by omega]
  exact ⟨fun u hu => by rw [initialDone_window hcomp hset, if_neg hu],
    by rw [initialDone_window hcomp hset, if_pos rfl]; rfl⟩

theorem State.initialReported_congr {s s' t t' : State} {i : Nat} (hs : s'.win = s.win)
    (ht : t'.win = t.win) (h : s.initialReported t i) : s'.initialReported t' i := by
  unfold State.initialReported State.window at h ⊢
  rwa [hs, ht]

/-! ## The service of an entry (R118 to R120) -/

theorem exec_paintService {s : State} (h : s.resetHeld = false) :
    exec .paintService s = .next (servePaint s) := exec_of_running (fun _ => rfl) h

/-- The state once the head entry has left the paint queue. -/
def State.dequeued (s : State) (rest : List PaintReq) : State :=
  s.modPnt fun p => { p with queue := rest }

theorem servePaint_of_cons {s : State} {q : PaintReq} {rest : List PaintReq}
    (hb : s.pnt.burst = none) (hq : s.pnt.queue = q :: rest) :
    servePaint s = serveReq q (s.dequeued rest) := by
  simp only [servePaint, hb, hq]
  rfl

theorem servePaint_of_none {s : State} (h : s.pnt.burst ≠ none ∨ s.pnt.queue = []) :
    servePaint s = s := by
  unfold servePaint
  split
  · next hb hq => simp [hb, hq] at h
  · rfl
  · rfl

@[simp] theorem paintSite_dequeued (s : State) (rest : List PaintReq) (i : Nat) :
    paintSite (s.dequeued rest) i = paintSite s i := rfl

theorem paintSite_eq {s : State} {i w : Nat} {f : Field} {v : Window}
    (hf : Tab.look i s.lay.fields = some f) (hv : s.showing f.page = some (w, v))
    (hrow : f.row < v.height) : paintSite s i = some (f, w, v) := by
  simp only [paintSite, hf, hv, hrow, if_true]

theorem paintSite_eq_none {s : State} {i : Nat}
    (h : ∀ f w v, Tab.look i s.lay.fields = some f → s.showing f.page = some (w, v) →
      v.height ≤ f.row) : paintSite s i = none := by
  unfold paintSite
  split
  · rfl
  · next f hf =>
    split
    · rfl
    · next w v hv => rw [if_neg (not_lt.mpr (h f w v hf hv))]

theorem serveReq_of_none {s : State} {q : PaintReq} (h : paintSite s q.index = none) :
    serveReq q s = skipReq q s := by simp only [serveReq, h]

theorem serveReq_of_frozen {s : State} {q : PaintReq} {f : Field} {w : Nat} {v : Window}
    (h : paintSite s q.index = some (f, w, v)) (hv : v.state = .frozen) :
    serveReq q s = skipReq q (s.modWindow w fun v => { v with dirty := true }) := by
  simp only [serveReq, h, hv, if_true]

theorem serveReq_of_shown {s : State} {q : PaintReq} {f : Field} {w : Nat} {v : Window}
    (h : paintSite s q.index = some (f, w, v)) (hv : v.state ≠ .frozen) :
    serveReq q s = paintReq q f v s := by
  simp only [serveReq, h, hv, if_false]

theorem skipReq_of_ne {q : PaintReq} (h : q.kind ≠ .initial) (s : State) : skipReq q s = s := if_neg h

theorem skipReq_of_initial {q : PaintReq} (h : q.kind = .initial) (s : State) :
    skipReq q s = initialDone q.index s := if_pos h

theorem paintReq_of_held {q : PaintReq} {f : Field} {s : State} {last : Sweep} (v : Window)
    (hk : q.kind = .ordinary) (hl : (s.paintState q.index).lastPaint = some last)
    (ht : (s.now - last).toNat < f.throttle) :
    paintReq q f v s = s.modPaint q.index (holdBack (last + BitVec.ofNat 32 f.throttle)) := by
  simp only [paintReq, heldUntil, hk, hl, ht, if_true]

theorem paintReq_of_due {q : PaintReq} {f : Field} {s : State} (v : Window)
    (h : q.kind = .ordinary → ∀ last, (s.paintState q.index).lastPaint = some last →
      f.throttle ≤ (s.now - last).toNat) :
    paintReq q f v s = s.modPnt fun p => { p with burst := some (paintBurst s q f v) } := by
  have hnone : (if q.kind = .ordinary then
      heldUntil s.now f.throttle (s.paintState q.index).lastPaint else none) = none := by
    split
    · next hk =>
      unfold heldUntil
      split
      · rfl
      · next last hl => rw [if_neg (not_lt.mpr (h hk last hl))]
    · rfl
  simp only [paintReq, hnone]

/-- Settles O42: an entry without a place to paint leaves the queue, with the report of an INITIAL one;
a FROZEN window is marked DIRTY, and being FROZEN it composes nothing, so no report reaches it. -/
theorem paintServiceHoldsBack : Obligations.PaintServiceHoldsBack := by
  refine ⟨?skipped, ?frozen, fun s hs hn => by rw [exec_paintService hs, servePaint_of_none hn], ?held⟩
  case skipped =>
    intro s q rest hs hw hb hq hsite
    refine ⟨_, exec_paintService hs, ?_⟩
    rw [servePaint_of_cons hb hq, serveReq_of_none (paintSite_eq_none hsite : paintSite (s.dequeued rest) _ = _)]
    refine ⟨fun hk => ?_, fun hk => by rw [skipReq_of_ne hk]; rfl, by rw [skipReq_frame]; rfl⟩
    rw [skipReq_of_initial hk]
    exact State.initialReported_congr rfl rfl
      (initialDone_reported (s := s.dequeued rest) hw.rising q.index)
  case frozen =>
    intro s q rest f w v hs hw hb hq hf hv hrow hfrozen
    obtain ⟨-, rfl, -⟩ := State.showing_eq_some hw.rising hv
    refine ⟨_, exec_paintService hs, ?_⟩
    rw [servePaint_of_cons hb hq,
      serveReq_of_frozen (paintSite_eq hf hv hrow : paintSite (s.dequeued rest) _ = _) hfrozen]
    generalize hu : (s.dequeued rest).modWindow w (fun v => { v with dirty := true }) = u
    have hrising : Tab.rising u.win = true := by
      subst hu
      exact ((Tab.wf_iff _ _).mp (Tab.wf_put _ _ _ hw.1)).1
    have hwin : u.window w = { s.window w with dirty := true } := by
      subst hu
      exact State.window_modWindow_self _ _ _
    have hidle : ¬ u.composes w q.index := by
      rintro ⟨set, hset, -⟩
      obtain ⟨-, hcompose, -⟩ := hw.agrees w
      rw [hwin, hcompose.mpr (by rw [hfrozen]; exact WinState.noConfusion)] at hset
      cases hset
    refine ⟨?_, fun hk x hx => ?_, fun hk => ?_, by rw [skipReq_frame, ← hu]; rfl⟩
    · by_cases hk : q.kind = .initial
      · rw [skipReq_of_initial hk, initialDone_window_of_not hrising hidle, hwin]
      · rw [skipReq_of_ne hk, hwin]
    · rw [skipReq_of_ne hk, ← hu]
      exact (State.window_modWindow _ _ _ _).trans (if_neg hx)
    · rw [skipReq_of_initial hk]
      exact State.initialReported_congr (by rw [← hu]; rfl) rfl (initialDone_reported hrising q.index)
  case held =>
    intro s q rest f w v last hs hb hq hk hf hv hrow hstate hl ht
    refine ⟨_, exec_paintService hs, ?_⟩
    rw [servePaint_of_cons hb hq,
      serveReq_of_shown (paintSite_eq hf hv hrow : paintSite (s.dequeued rest) _ = _) hstate,
      paintReq_of_held (s := s.dequeued rest) v hk hl ht]
    refine ⟨rfl, hb, ?_, fun i hi => ?_, rfl⟩
    · exact State.paintState_modPaint _ _ _ _ |>.trans (if_pos rfl)
    · exact State.paintState_modPaint _ _ _ _ |>.trans (if_neg hi)

/-! ## The text of a service (R121, R122) -/

theorem length_paintText (i : Nat) (f : Field) (m : OverrideMode) (labels : Tab Text)
    (items : Tab Stored) : (paintText i f m labels items).1.length = f.width := by
  unfold paintText
  split
  · next t ht =>
    unfold overrideText at ht
    split at ht
    · cases ht
    · cases ht; exact length_fill _ _
    · cases ht; exact length_placeOrFill _ _ _
  · split
    · next t ht =>
      unfold substText at ht
      split at ht
      · cases ht
      · cases ht; exact length_fill _ _
      · cases ht; exact length_fill _ _
    · split
      · next t ht =>
        unfold conditionText at ht
        split at ht
        · split at ht
          · cases ht
          · split at ht
            · cases ht
            · cases ht; exact length_condText _ _ _ _
        · cases ht
      · exact fieldTextFillsWidth f labels items

theorem paintText_dash {m : OverrideMode} (h : m = .dash) (i : Nat) (f : Field) (labels : Tab Text)
    (items : Tab Stored) : paintText i f m labels items = (fill chMinus f.width, .overridden) := by
  subst h
  rfl

theorem paintText_test {m : OverrideMode} (h : m = .test) (i : Nat) (f : Field) (labels : Tab Text)
    (items : Tab Stored) : paintText i f m labels items = (testText i f.width, .overridden) := by
  subst h
  rfl

theorem paintText_substDash {m : OverrideMode} {f : Field} (hm : m = .none) (hf : f.subst = .dash)
    (i : Nat) (labels : Tab Text) (items : Tab Stored) :
    paintText i f m labels items = (fill chMinus f.width, .substituted) := by
  simp only [paintText, hm, hf, overrideText, substText]

theorem paintText_substBlank {m : OverrideMode} {f : Field} (hm : m = .none) (hf : f.subst = .blank)
    (i : Nat) (labels : Tab Text) (items : Tab Stored) :
    paintText i f m labels items = (fill chSpace f.width, .substituted) := by
  simp only [paintText, hm, hf, overrideText, substText]

theorem paintText_condition {m : OverrideMode} {f : Field} {labels : Tab Text} {items : Tab Stored}
    {t : Text} (hm : m = .none) (hf : f.subst = .live) (ht : conditionText f labels items = some t)
    (i : Nat) : paintText i f m labels items = (t, .condition) := by
  simp only [paintText, hm, hf, overrideText, substText, ht]

theorem paintText_value {m : OverrideMode} {f : Field} {labels : Tab Text} {items : Tab Stored}
    (hm : m = .none) (hf : f.subst = .live) (ht : conditionText f labels items = none)
    (i : Nat) : paintText i f m labels items = (fieldText f labels items, .value) := by
  simp only [paintText, hm, hf, overrideText, substText, ht]

theorem conditionCode_eq_some {items : Tab Stored} {c : Nat} :
    conditionCode items = some c ↔ storedValue items .condition = .present (.code c) ∧ c ≠ 0 := by
  unfold conditionCode
  split
  · next d hd =>
    rw [hd]
    split
    · next h0 => simp_all
    · next h0 =>
      constructor
      · rintro ⟨⟩
        exact ⟨rfl, h0⟩
      · rintro ⟨⟨⟩, -⟩
        rfl
  all_goals next h => simp [h]

theorem conditionText_of_label {f : Field} {labels : Tab Text} {items : Tab Stored} {c : Nat}
    (hf : takesCondition f.selector = true)
    (hc : storedValue items .condition = .present (.code c)) (h0 : c ≠ 0)
    (hb : isBlank (condLabel labels c) = false) :
    conditionText f labels items = some (condText labels c f.width f.right) := by
  simp [conditionText, hf, conditionCode_eq_some.mpr ⟨hc, h0⟩, hb]

theorem conditionText_eq_none {f : Field} {labels : Tab Text} {items : Tab Stored}
    (h : takesCondition f.selector = false ∨
      ∀ c, storedValue items .condition = .present (.code c) →
        c = 0 ∨ isBlank (condLabel labels c) = true) :
    conditionText f labels items = none := by
  unfold conditionText
  split
  · next hf =>
    cases hcode : conditionCode items with
    | none => rfl
    | some c =>
      obtain ⟨hc, h0⟩ := conditionCode_eq_some.mp hcode
      obtain h | h := h
      · simp [h] at hf
      · obtain h | h := h c hc
        · exact absurd h h0
        · exact if_pos h
  · rfl

theorem map_glyph_fieldCells (i : Nat) (f : Field) (t : Text) (k : TextKind) :
    (fieldCells i f t k).map Cell.glyph = t.map (BitVec.setWidth 9) := by
  simp [fieldCells]

theorem mem_fieldCells {i : Nat} {f : Field} {t : Text} {k : TextKind} {c : Cell}
    (h : c ∈ fieldCells i f t k) :
    c.fg = f.fg ∧ c.bg = f.bg ∧ c.blink = f.blink ∧ c.field = some i ∧
      c.underline = decide (k = .condition) := by
  obtain ⟨b, -, rfl⟩ := List.mem_map.mp h
  exact ⟨rfl, rfl, rfl, rfl, rfl⟩

theorem glyph_of_mem_fill {i n : Nat} {f : Field} {b : Byte} {k : TextKind} {c : Cell}
    (h : c ∈ fieldCells i f (fill b n) k) : c.glyph = b.setWidth 9 := by
  obtain ⟨x, hx, rfl⟩ := List.mem_map.mp h
  rw [List.eq_of_mem_replicate hx]

theorem testText_glyphs (i w : Nat) :
    (testText i w).map (BitVec.setWidth 9) =
      if (decimal i).length ≤ w then
        List.replicate (w - (decimal i).length) 0x20 ++ (decimal i).map (BitVec.setWidth 9)
      else List.replicate w 0x23 := by
  unfold testText placeOrFill
  split
  · simp [padTo, fill, chSpace]
  · simp [fill, chHash]

theorem isOwn_iff {k : TextKind} : k.isOwn = true ↔ k = .value ∨ k = .condition := by
  cases k <;> simp [TextKind.isOwn]

theorem asksDirection_iff {kind : PaintKind} {k : TextKind} :
    asksDirection kind k = true ↔
      kind = .thaw ∨ kind = .ordinary ∧ (k = .value ∨ k = .condition) := by
  simp [asksDirection, isOwn_iff]

/-- What a service's burst is when its text is known. -/
theorem paintBurst_of_text {s : State} {q : PaintReq} {f : Field} {v : Window} {t : Text}
    {k : TextKind} (h : paintText q.index f v.override s.lay.condLabels (s.items f.key) = (t, k)) :
    (paintBurst s q f v).textKind = k ∧ (paintBurst s q f v).cells = fieldCells q.index f t k := by
  simp only [paintBurst, h, and_self]

/-- Settles O41: the burst is the model's, and its text goes by the first source that applies. -/
theorem paintServiceMakesBurst : Obligations.PaintServiceMakesBurst := by
  intro s q rest f w v hs hb hq hf hv hrow hstate hdue
  refine ⟨_, paintBurst s q f v, exec_paintService hs, ?_⟩
  rw [servePaint_of_cons hb hq,
    serveReq_of_shown (paintSite_eq hf hv hrow : paintSite (s.dequeued rest) _ = _) hstate,
    paintReq_of_due (s := s.dequeued rest) v hdue]
  refine ⟨rfl, rfl, rfl, rfl, rfl, rfl, rfl, rfl, ?_, rfl, rfl, rfl, rfl, rfl, ?_,
    fun c hc => mem_fieldCells hc, rfl, fun hm => ?_, fun hm => ?_, fun hm hsub => ?_,
    fun hm hsub => ?_, fun hm hsub => ⟨fun code htakes hcode h0 hblank => ?_, fun hno => ?_⟩, rfl⟩
  · exact if_congr asksDirection_iff rfl rfl
  · exact (List.length_map _).trans (length_paintText ..)
  · obtain ⟨hkind, hcells⟩ := paintBurst_of_text (s := s) (paintText_dash hm q.index f _ _)
    exact ⟨hkind, fun c hc => glyph_of_mem_fill (hcells ▸ hc)⟩
  · obtain ⟨hkind, hcells⟩ := paintBurst_of_text (s := s) (paintText_test hm q.index f _ _)
    exact ⟨hkind, by rw [hcells, map_glyph_fieldCells, testText_glyphs]⟩
  · obtain ⟨hkind, hcells⟩ := paintBurst_of_text (s := s) (paintText_substDash hm hsub q.index _ _)
    exact ⟨hkind, fun c hc => glyph_of_mem_fill (hcells ▸ hc)⟩
  · obtain ⟨hkind, hcells⟩ := paintBurst_of_text (s := s) (paintText_substBlank hm hsub q.index _ _)
    exact ⟨hkind, fun c hc => glyph_of_mem_fill (hcells ▸ hc)⟩
  · obtain ⟨hkind, hcells⟩ := paintBurst_of_text (s := s)
      (paintText_condition hm hsub (conditionText_of_label htakes hcode h0 hblank) q.index)
    exact ⟨hkind, by rw [hcells, map_glyph_fieldCells]⟩
  · obtain ⟨hkind, hcells⟩ := paintBurst_of_text (s := s)
      (paintText_value hm hsub (conditionText_eq_none hno) q.index)
    exact ⟨hkind, by rw [hcells, map_glyph_fieldCells]⟩

/-! ## Room for a highlight entry (R131) -/

theorem makeRoom_frame (l : Lay) (i : Nat) (p : Pnt) :
    makeRoom l i p =
      { p with states := (makeRoom l i p).states, highlights := (makeRoom l i p).highlights } := by
  unfold makeRoom expireHead
  split
  · rfl
  · split
    · rfl
    · split <;> rfl

theorem get_expireField (l : Lay) (states : Tab PaintState) (i j : Nat) :
    Tab.get initialPaint j (expireField l states i) =
      if j = i then expiredFlash (modeOf l i) (Tab.get initialPaint i states)
      else Tab.get initialPaint j states := Tab.get_put _ _ _ _ _

/-- Room for a field's entry changes no paint state but that of a head entry which another field
holds, with the list full. -/
theorem get_makeRoom (l : Lay) (i j : Nat) (p : Pnt) :
    Tab.get initialPaint j (makeRoom l i p).states = Tab.get initialPaint j p.states ∨
      j ≠ i ∧ 128 ≤ p.highlights.length ∧ listed j p.highlights = true ∧
        (Tab.get initialPaint j (makeRoom l i p).states).flash = .none := by
  unfold makeRoom
  split
  · exact .inl rfl
  · next hlisted =>
    split
    · exact .inl rfl
    · next hlen =>
      unfold expireHead
      split
      · exact .inl rfl
      · next h t hp =>
        rw [get_expireField]
        by_cases hj : j = h.index
        · have hmem : listed j p.highlights = true := by simp [hp, hj, listed]
          refine .inr ⟨fun hji => hlisted (hji ▸ hmem), not_lt.mp hlen, hmem, ?_⟩
          rw [if_pos hj]
          rfl
        · exact .inl (if_neg hj)

theorem self_mem_placeHighlight (now : Sweep) (h : Highlight) (hs : List Highlight) :
    h ∈ placeHighlight now h hs := by
  induction hs with
  | nil => exact List.mem_singleton_self h
  | cons g t ih =>
    unfold placeHighlight
    split
    · exact List.mem_cons_self
    · exact List.mem_cons_of_mem _ ih

theorem setFlash_frame (i : Nat) (f : Flash) (hold : Nat) (s : State) :
    setFlash i f hold s =
      { s with
        pnt := { s.pnt with
          states := (setFlash i f hold s).pnt.states
          highlights := (setFlash i f hold s).pnt.highlights } } := by
  unfold setFlash
  dsimp only [State.modPaint, State.modPnt]
  rw [makeRoom_frame]

theorem setFlash_paintState (i : Nat) (f : Flash) (hold : Nat) (s : State) :
    (setFlash i f hold s).paintState i = { s.paintState i with flash := f } := by
  refine (State.paintState_modPaint _ _ _ _).trans ((if_pos rfl).trans ?_)
  obtain h | ⟨h, -⟩ := get_makeRoom s.lay i i s.pnt
  · exact congrArg (fun q : PaintState => { q with flash := f }) h
  · exact absurd rfl h

theorem setFlash_paintState_of_ne {i j : Nat} (hj : j ≠ i) (f : Flash) (hold : Nat) (s : State) :
    (setFlash i f hold s).paintState j = s.paintState j ∨
      128 ≤ s.pnt.highlights.length ∧ listed j s.pnt.highlights = true ∧
        ((setFlash i f hold s).paintState j).flash = .none := by
  have heq : (setFlash i f hold s).paintState j =
      Tab.get initialPaint j (makeRoom s.lay i s.pnt).states :=
    (State.paintState_modPaint _ _ _ _).trans (if_neg hj)
  rw [heq]
  exact (get_makeRoom s.lay i j s.pnt).imp_right fun ⟨_, h⟩ => h

theorem mem_setFlash (i : Nat) (f : Flash) (hold : Nat) (s : State) :
    { index := i, due := s.lnk.sweep + BitVec.ofNat 32 hold } ∈ (setFlash i f hold s).pnt.highlights :=
  self_mem_placeHighlight ..

/-! ## What a commit leaves (R123 to R129) -/

/-- The state once a commit has recorded the paint and an INITIAL or THAW one has taken the field's
highlight entry out, before it sets a flash. -/
def State.recorded (s : State) (b : PaintBurst) : State :=
  if b.kind.startsAfresh then
    (s.modPaint b.index (committed s.now b)).modPnt fun p =>
      { p with highlights := unlist b.index p.highlights }
  else s.modPaint b.index (committed s.now b)

/-- The state once a commit has set its flash, if it sets one. -/
def State.marked (s : State) (b : PaintBurst) : State :=
  (commitFlash s b).elim (s.recorded b) fun f => setFlash b.index f b.hold (s.recorded b)

theorem commitBurst_eq (b : PaintBurst) (s : State) :
    commitBurst b s = if b.kind = .initial then initialDone b.index (s.marked b) else s.marked b := by
  unfold commitBurst State.marked State.recorded
  cases commitFlash s b <;> rfl

theorem recorded_frame (s : State) (b : PaintBurst) :
    s.recorded b =
      { s with
        pnt := { s.pnt with
          states := (s.recorded b).pnt.states, highlights := (s.recorded b).pnt.highlights } } := by
  unfold State.recorded
  split <;> rfl

theorem marked_frame (s : State) (b : PaintBurst) :
    s.marked b =
      { s with
        pnt := { s.pnt with
          states := (s.marked b).pnt.states, highlights := (s.marked b).pnt.highlights } } := by
  unfold State.marked
  cases commitFlash s b with
  | none => exact recorded_frame s b
  | some f =>
    refine (setFlash_frame b.index f b.hold (s.recorded b)).trans ?_
    rw [recorded_frame s b]
    rfl

theorem recorded_paintState (s : State) (b : PaintBurst) (i : Nat) :
    (s.recorded b).paintState i =
      if i = b.index then committed s.lnk.sweep b (s.paintState b.index) else s.paintState i := by
  unfold State.recorded
  split <;> exact State.paintState_modPaint s b.index i _

theorem marked_paintState (s : State) (b : PaintBurst) :
    (s.marked b).paintState b.index =
      { committed s.lnk.sweep b (s.paintState b.index) with
        flash := (commitFlash s b).getD (committed s.lnk.sweep b (s.paintState b.index)).flash } := by
  unfold State.marked
  cases commitFlash s b with
  | none => exact (recorded_paintState s b _).trans (if_pos rfl)
  | some f =>
    refine (setFlash_paintState ..).trans ?_
    rw [recorded_paintState, if_pos rfl]
    rfl

theorem marked_of_none {s : State} {b : PaintBurst} (h : commitFlash s b = none) :
    s.marked b = s.recorded b := by rw [State.marked, h, Option.elim]

theorem recorded_highlights {b : PaintBurst} (h : b.kind.startsAfresh = false) (s : State) :
    (s.recorded b).pnt.highlights = s.pnt.highlights := by
  rw [State.recorded, h]
  rfl

theorem recorded_unlisted {b : PaintBurst} (h : b.kind.startsAfresh = true) (s : State) :
    listed b.index (s.recorded b).pnt.highlights = false := by
  rw [State.recorded, h]
  simp [State.modPnt, State.modPaint, listed, unlist]

theorem marked_paintState_of_ne (s : State) (b : PaintBurst) {i : Nat} (hi : i ≠ b.index) :
    (s.marked b).paintState i = s.paintState i ∨
      128 ≤ s.pnt.highlights.length ∧ listed i s.pnt.highlights = true ∧
        ((s.marked b).paintState i).flash = .none := by
  cases hf : commitFlash s b with
  | none => rw [marked_of_none hf, recorded_paintState, if_neg hi]; exact .inl rfl
  | some f =>
    obtain ⟨hk, -⟩ := commitFlash_eq_some hf
    have hlist := recorded_highlights (b := b) (by rw [hk]; rfl) s
    have hmarked : s.marked b = setFlash b.index f b.hold (s.recorded b) := by
      rw [State.marked, hf, Option.elim]
    have := setFlash_paintState_of_ne hi f b.hold (s.recorded b)
    rwa [recorded_paintState, if_neg hi, hlist, ← hmarked] at this

theorem committed_painted (now : Sweep) (b : PaintBurst) (p : PaintState) :
    (committed now b p).lastPaint = some now ∧ (committed now b p).pending = none ∧
      (committed now b p).textKind = b.textKind := by
  unfold committed painted
  cases b.kind with
  | ordinary => dsimp only; split <;> exact ⟨rfl, rfl, rfl⟩
  | _ => exact ⟨rfl, rfl, rfl⟩

theorem committed_lastValue {b : PaintBurst} (h : b.kind = .initial ∨ b.kind = .thaw ∨
    b.textKind = .value ∨ b.textKind = .condition) (hr : b.kind ≠ .repaint) (now : Sweep)
    (p : PaintState) : (committed now b p).lastValue = some b.value := by
  unfold committed
  cases hk : b.kind with
  | initial => rfl
  | thaw => rfl
  | ordinary =>
    have hown : b.textKind.isOwn = true := isOwn_iff.mpr (by simpa [hk] using h)
    simp only [hown, if_true]
  | repaint => exact absurd hk hr

/-- A REPAINT commit and an ORDINARY one of a replaced text record the paint alone. -/
theorem committed_of_replaced {b : PaintBurst} (h : b.kind = .repaint ∨
    b.kind = .ordinary ∧ b.textKind.isOwn = false) (now : Sweep) (p : PaintState) :
    committed now b p = painted now b.textKind p := by
  obtain hk | ⟨hk, ht⟩ := h
  · simp [committed, hk]
  · simp [committed, hk, ht]

theorem commitFlash_of_ne_ordinary {b : PaintBurst} (h : b.kind ≠ .ordinary) (s : State) :
    commitFlash s b = none := by simp [commitFlash, h]

theorem commitFlash_of_not_own {b : PaintBurst} (h : b.textKind.isOwn = false) (s : State) :
    commitFlash s b = none := by simp [commitFlash, h]

theorem commitFlash_of_hidden {s : State} {b : PaintBurst}
    (h : b.released = true ∨ paintSite s b.index = none) : commitFlash s b = none := by
  obtain h | h := h <;> simp [commitFlash, h]

theorem commitFlash_of_visible {s : State} {b : PaintBurst} (hk : b.kind = .ordinary)
    (ht : b.textKind = .value ∨ b.textKind = .condition) (hr : b.released = false)
    (hs : (paintSite s b.index).isSome = true) : commitFlash s b = ordinaryFlash b := by
  simp [commitFlash, hk, isOwn_iff.mpr ht, hr, hs]

theorem ordinaryFlash_of_flashing {b : PaintBurst} (h : b.mode = .flash ∨ b.mode = .flashSticky) :
    ordinaryFlash b = flashOf b.dir b.hold b.touch := by
  obtain h | h := h <;> simp [ordinaryFlash, h]

theorem flashOf_of_moved {d : Direction} {hold : Nat} {touch : Bool} (h0 : 0 < hold)
    (hd : d = .up ∨ d = .down ∨ (d = .equal ∧ touch = true)) :
    flashOf d hold touch =
      some (if d = .up then .up else if d = .down then .down else .touch) := by
  obtain rfl | rfl | ⟨rfl, rfl⟩ := hd <;> simp [flashOf, h0.ne']

theorem flashOf_of_still {d : Direction} {touch : Bool} (hold : Nat)
    (hd : d = .none ∨ (d = .equal ∧ touch = false)) : flashOf d hold touch = none := by
  obtain rfl | ⟨rfl, rfl⟩ := hd <;> simp [flashOf]

theorem flashOf_zero (d : Direction) (touch : Bool) : flashOf d 0 touch = none := if_pos rfl

theorem moveStick_eq (d : Direction) (k : Stick) :
    moveStick d k = if d = .up then .up else if d = .down then .down else k := by
  cases d <;> rfl

theorem signStick_eq (v : Value) :
    signStick (sign v) =
      if sign v = .positive then .up else if sign v = .negative then .down else .none := by
  cases sign v <;> rfl

theorem initialStick_eq (b : PaintBurst) :
    initialStick b = if b.mode = .sign then signStick (sign b.value) else .none := by
  unfold initialStick
  cases b.mode <;> rfl

theorem thawStick_eq (b : PaintBurst) (k : Stick) :
    thawStick b k =
      if b.mode = .sign then signStick (sign b.value)
      else if b.mode = .sticky ∨ b.mode = .flashSticky then moveStick b.dir k else k := by
  unfold thawStick
  cases b.mode <;> rfl

theorem ordinaryStick_of_flashing {b : PaintBurst} (h : b.mode = .flash ∨ b.mode = .flashSticky)
    (k : Stick) :
    ordinaryStick b k = if b.hold = 0 ∧ b.mode = .flashSticky then moveStick b.dir k else k := by
  obtain h | h := h <;> simp [ordinaryStick, h]

theorem initialDone_pnt (i : Nat) (s : State) : (initialDone i s).pnt = s.pnt :=
  read_of_frame State.pnt (initialDone_frame i s) rfl

/-- The flash and the list that a commit without a flash of its own leaves, when it does not start
afresh. -/
theorem marked_of_no_flash {s : State} {b : PaintBurst} (ha : b.kind.startsAfresh = false)
    (h : commitFlash s b = none) :
    (s.marked b).paintState b.index = committed s.lnk.sweep b (s.paintState b.index) ∧
      ((s.marked b).paintState b.index).flash = (s.paintState b.index).flash ∧
      (s.marked b).pnt.highlights = s.pnt.highlights ∧
      ∀ i, i ≠ b.index → (s.marked b).paintState i = s.paintState i := by
  have hpaint : (s.marked b).paintState b.index = committed s.lnk.sweep b (s.paintState b.index) := by
    rw [marked_of_none h, recorded_paintState, if_pos rfl]
  refine ⟨hpaint, by rw [hpaint, committed_flash, ha]; rfl,
    by rw [marked_of_none h, recorded_highlights ha], fun i hi => ?_⟩
  rw [marked_of_none h, recorded_paintState, if_neg hi]

/-- What an INITIAL or THAW commit leaves of flash and list (R129). -/
theorem marked_of_afresh {s : State} {b : PaintBurst} (hk : b.kind = .initial ∨ b.kind = .thaw) :
    (s.marked b).paintState b.index = committed s.lnk.sweep b (s.paintState b.index) ∧
      ((s.marked b).paintState b.index).flash = .none ∧
      listed b.index (s.marked b).pnt.highlights = false := by
  have ha : b.kind.startsAfresh = true := by obtain h | h := hk <;> rw [h] <;> rfl
  have hne : b.kind ≠ .ordinary := by obtain h | h := hk <;> simp [h]
  have hnone := commitFlash_of_ne_ordinary hne s
  have hpaint : (s.marked b).paintState b.index = committed s.lnk.sweep b (s.paintState b.index) := by
    rw [marked_of_none hnone, recorded_paintState, if_pos rfl]
  exact ⟨hpaint, by rw [hpaint, committed_flash, ha]; rfl,
    by rw [marked_of_none hnone]; exact recorded_unlisted ha s⟩

/-- The stick and the flash of an ordinary commit with the field's own text. -/
theorem marked_ordinary_own {s : State} {b : PaintBurst} (hk : b.kind = .ordinary)
    (ht : b.textKind = .value ∨ b.textKind = .condition) :
    ((s.marked b).paintState b.index).stick = ordinaryStick b (s.paintState b.index).stick ∧
      ((s.marked b).paintState b.index).flash =
        (commitFlash s b).getD (s.paintState b.index).flash := by
  rw [marked_paintState, committed_ordinary_own hk ht]
  exact ⟨rfl, rfl⟩

/-- A flashing policy's commit whose direction moves the flash of a visible field (R125, R131). -/
theorem marked_flashes {s : State} {b : PaintBurst} (hk : b.kind = .ordinary)
    (ht : b.textKind = .value ∨ b.textKind = .condition)
    (hm : b.mode = .flash ∨ b.mode = .flashSticky) (h0 : 0 < b.hold) (hr : b.released = false)
    (hs : (paintSite s b.index).isSome = true)
    (hd : b.dir = .up ∨ b.dir = .down ∨ (b.dir = .equal ∧ b.touch = true)) :
    ((s.marked b).paintState b.index).flash =
        (if b.dir = .up then .up else if b.dir = .down then .down else .touch) ∧
      ((s.marked b).paintState b.index).stick = (s.paintState b.index).stick ∧
      { index := b.index, due := s.lnk.sweep + BitVec.ofNat 32 b.hold } ∈ (s.marked b).pnt.highlights := by
  have hflash := commitFlash_of_visible hk ht hr hs
  rw [ordinaryFlash_of_flashing hm, flashOf_of_moved h0 hd] at hflash
  obtain ⟨hstick, hf⟩ := marked_ordinary_own (s := s) hk ht
  refine ⟨by rw [hf, hflash]; rfl, ?_, ?_⟩
  · rw [hstick, ordinaryStick_of_flashing hm, if_neg fun h => h0.ne' h.1]
  · rw [State.marked, hflash]
    exact (recorded_frame s b).symm ▸ mem_setFlash b.index _ b.hold (s.recorded b)

theorem commitBurst_pnt (b : PaintBurst) (s : State) : (commitBurst b s).pnt = (s.marked b).pnt := by
  rw [commitBurst_eq]
  split
  · exact initialDone_pnt ..
  · rfl

theorem commitBurst_win (b : PaintBurst) (s : State) :
    (b.kind = .initial → s.windowsAgree → s.initialReported (commitBurst b s) b.index) ∧
      (b.kind ≠ .initial → (commitBurst b s).win = s.win) := by
  have hwin : (s.marked b).win = s.win := read_of_frame State.win (marked_frame s b) rfl
  rw [commitBurst_eq]
  refine ⟨fun hk hw => ?_, fun hk => by rw [if_neg hk, hwin]⟩
  rw [if_pos hk]
  exact State.initialReported_congr hwin.symm rfl
    (initialDone_reported (s := s.marked b) (hwin.symm ▸ hw.rising) b.index)

/-- Settles O44: what the commit of a written burst leaves is read off the paint state and the list once
the flash is set, kind by kind; the report of an INITIAL one changes a window alone. -/
theorem commitPaints : Obligations.CommitPaints := by
  refine ⟨fun s b hs hb hw hu _ => ?_, fun s b hs hb hw hu => ?_⟩
  case refine_2 =>
    rw [exec_of_running (f := commitPaint) (fun _ => rfl) hs]
    simp [commitPaint, hb, hw, hu, State.modPnt]
  generalize hs' : (s.modPnt fun p => { p with burst := none }) = s'
  have hpaint (i : Nat) : s.paintState i = s'.paintState i := by rw [← hs']; rfl
  have hlist : s.pnt.highlights = s'.pnt.highlights := by rw [← hs']; rfl
  have hsite : paintSite s b.index = paintSite s' b.index := by rw [← hs']; rfl
  have hnow : s.lnk.sweep = s'.lnk.sweep := by rw [← hs']; rfl
  have hpnt := commitBurst_pnt b s'
  have hread (i : Nat) : (commitBurst b s').paintState i = (s'.marked b).paintState i := by
    rw [State.paintState, hpnt]
    rfl
  have hframe : (s'.marked b).pnt.burst = none ∧ (s'.marked b).pnt.queue = s.pnt.queue := by
    rw [marked_frame, ← hs']
    exact ⟨rfl, rfl⟩
  obtain ⟨hlast, hpending, hkind⟩ :=
    committed_painted s'.lnk.sweep b (s'.paintState b.index)
  refine ⟨commitBurst b s', (s'.marked b).paintState b.index,
    hs' ▸ exec_paintCommit_written hs hb hw hu, (hread _).symm, by rw [hpnt, hframe.1], ?_⟩
  simp only [hread, hpnt, hpaint, hlist, hsite, hnow]
  refine ⟨?last, ?pending, ?kind, ?value, ?replaced, ?flashing, ?plain, ?afresh, ?initial, ?thaw,
    fun i hi => marked_paintState_of_ne s' b hi, ?reported, ?windows, ?frame⟩
  case last => rw [marked_paintState, hlast]
  case pending => rw [marked_paintState, hpending]
  case kind => rw [marked_paintState, hkind]
  case value =>
    intro h hr
    rw [marked_paintState, committed_lastValue h hr]
  case replaced =>
    intro h
    have hrepl : b.kind = .repaint ∨ b.kind = .ordinary ∧ b.textKind.isOwn = false :=
      h.imp_right fun ⟨hk, ht⟩ => ⟨hk, by obtain ht | ht := ht <;> rw [ht] <;> rfl⟩
    have hnone : commitFlash s' b = none := by
      obtain hk | ⟨-, ht⟩ := hrepl
      · exact commitFlash_of_ne_ordinary (by simp [hk]) s'
      · exact commitFlash_of_not_own ht s'
    have ha : b.kind.startsAfresh = false := by
      obtain hk | ⟨hk, -⟩ := hrepl <;> rw [hk] <;> rfl
    obtain ⟨hp, -, hh, -⟩ := marked_of_no_flash ha hnone
    rw [hp, hh, committed_of_replaced hrepl]
    exact ⟨rfl, rfl⟩
  case flashing =>
    intro hk ht hm
    have ha : b.kind.startsAfresh = false := by rw [hk]; rfl
    obtain ⟨hstick, -⟩ := marked_ordinary_own (s := s') hk ht
    rw [ordinaryStick_of_flashing hm] at hstick
    refine ⟨fun h0 hr hsome hd => marked_flashes hk ht hm h0 hr hsome hd, fun hd => ?_, fun hhid => ?_,
      fun h0 => ?_⟩
    · obtain ⟨-, hf, hh, -⟩ := marked_of_no_flash (s := s') ha
        (commitFlash_of_ordinaryFlash_none (by rw [ordinaryFlash_of_flashing hm, flashOf_of_still _ hd]) s')
      refine ⟨hf, ?_, hh⟩
      rw [hstick]
      obtain hd | ⟨hd, -⟩ := hd <;> simp [moveStick, hd]
    · obtain ⟨-, hf, hh, -⟩ := marked_of_no_flash ha (commitFlash_of_hidden hhid)
      exact ⟨hf, hh, fun h0 => by rw [hstick, if_neg fun h => h0.ne' h.1]⟩
    · obtain ⟨-, hf, hh, -⟩ := marked_of_no_flash (s := s') ha
        (commitFlash_of_ordinaryFlash_none (by rw [ordinaryFlash_of_flashing hm, h0, flashOf_zero]) s')
      refine ⟨hf, hh, ?_⟩
      rw [hstick, moveStick_eq]
      simp only [h0, true_and]
      by_cases hfs : b.mode = .flashSticky <;> simp [hfs]
  case plain =>
    intro hk hm
    have hno : ordinaryFlash b = none := by simp [ordinaryFlash, hm]
    obtain ⟨hp, hf, hh, hother⟩ := marked_of_no_flash (s := s') (by rw [hk]; rfl)
      (commitFlash_of_ordinaryFlash_none hno s')
    refine ⟨hf, ?_, hh, hother⟩
    rw [hp]
    unfold committed
    simp only [hk]
    split
    · simp [ordinaryStick, hm]
    · rfl
  case afresh =>
    intro hk
    obtain ⟨hp, hf, hl⟩ := marked_of_afresh (s := s') hk
    refine ⟨hf, hl, fun hm => ?_⟩
    rw [hp, ← signStick_eq]
    obtain hk | hk := hk
    · simp [committed, hk, initialStick_eq, hm]
    · simp [committed, hk, thawStick_eq, hm]
  case initial =>
    intro hk hm
    obtain ⟨hp, -⟩ := marked_of_afresh (s := s') (.inl hk)
    rw [hp]
    simp [committed, hk, initialStick_eq, hm]
  case thaw =>
    intro hk hm
    obtain ⟨hp, -⟩ := marked_of_afresh (s := s') (.inr hk)
    rw [hp]
    simp only [committed, hk, thawStick_eq, hm, if_false, moveStick_eq]
    by_cases hst : b.mode = .sticky ∨ b.mode = .flashSticky <;> simp [hst]
  case reported =>
    intro hk hwin
    exact State.initialReported_congr (by rw [← hs']; rfl) rfl
      ((commitBurst_win b s').1 hk (by rw [← hs']; exact hwin))
  case windows =>
    intro hk
    rw [(commitBurst_win b s').2 hk, ← hs']
    rfl
  case frame =>
    refine (commitBurst_frame b s').trans ?_
    rw [hpnt, ← hframe.2, ← hs']
    rfl

end Sys2Proof.Machine

/-! PROOFS. Pages that end and begin, and the carousels (spec/08 sections 8.1 to 8.4). -/

namespace Sys2Proof.Machine

/-! ## A window changed twice -/

theorem Tab.erase_place {α : Type} (k : Nat) (v : α) (t : Tab α) :
    Tab.erase k (Tab.place k v t) = Tab.erase k t := by
  induction t with
  | nil => exact if_pos rfl
  | cons e t ih =>
    obtain ⟨i, w⟩ := e
    unfold Tab.place
    split
    · exact if_pos rfl
    · simp only [Tab.erase, ih]

theorem Tab.erase_erase {α : Type} (k : Nat) (t : Tab α) : Tab.erase k (Tab.erase k t) = Tab.erase k t :=
  Tab.erase_of_look_none (by rw [Tab.look_erase, if_pos rfl])

theorem Tab.put_put {α : Type} [DecidableEq α] (d : α) (k : Nat) (v v' : α) (t : Tab α) :
    Tab.put d k v (Tab.put d k v' t) = Tab.put d k v t := by
  have h : Tab.erase k (Tab.put d k v' t) = Tab.erase k t := by
    unfold Tab.put Tab.insert
    split
    · exact Tab.erase_erase k t
    · rw [Tab.erase_place, Tab.erase_erase]
  generalize Tab.put d k v' t = u at h
  unfold Tab.put Tab.insert
  rw [h]

theorem State.modWindow_modWindow (s : State) (w : Nat) (f g : Window → Window) :
    (s.modWindow w f).modWindow w g = s.modWindow w fun v => g (f v) := by
  simp only [State.modWindow, State.modWin, Tab.put_put, Tab.get_put_self]

/-! ## The end of a page (R124, R133, R146) -/

/-- What agreement says of a window without a page. -/
theorem Window.agrees.of_page_none {v : Window} (h : v.agrees) (hp : v.page = none) :
    v.state = .empty ∧ v.dirty = false ∧ v.freezeReq = false ∧ v.compose = none ∧
      v.advanceDue = false := by
  obtain ⟨hpage, hcompose, hdirty, hfreeze, hadvance, -⟩ := h
  have hs := hpage.mp hp
  simp only [hs] at hcompose hdirty hfreeze hadvance
  simp_all

theorem emptied_of_page_none {v : Window} (h : v.agrees) (hp : v.page = none) : emptied v = v := by
  obtain ⟨hs, hd, hf, hc, ha⟩ := h.of_page_none hp
  obtain ⟨top, height, background, state, page, dirty, freezeReq, override, compose, carousel, step,
    dwell, advanceDue, dwellDue⟩ := v
  subst hs hd hf hc ha hp
  rfl

theorem endPage_window {s : State} {w : Nat} (h : (s.window w).agrees) (x : Nat) :
    (endPage w s).window x = if x = w then emptied (s.window w) else s.window x := by
  obtain ⟨hp, e⟩ | ⟨-, hw, hother, -⟩ := endPage_cases w s
  · rw [e, emptied_of_page_none h hp]
    split
    · next hx => rw [hx]
    · rfl
  · split
    · next hx => rw [hx, hw]
    · next hx => exact hother x hx

theorem endPage_queue (w : Nat) (s : State) : (endPage w s).pnt.queue = s.pnt.queue := by
  obtain ⟨-, e⟩ | ⟨-, -, -, -, hq, -⟩ := endPage_cases w s
  · rw [e]
  · exact hq

theorem endPage_pnt {s : State} {w p : Nat} (hp : (s.window w).page = some p) :
    (endPage w s).pnt =
      { (unlightPage p s).pnt with burst := s.pnt.burst.bind (releaseBurst p) } := by
  simp only [endPage, hp]
  exact read_of_frame State.pnt (abandonBursts_frame w _) rfl

theorem endPage_cpl {s : State} {w : Nat} (h : (s.window w).agrees) :
    (endPage w s).cpl =
      if (s.window w).state = .composing then (withdrawBursts w s).cpl else s.cpl := by
  obtain ⟨hp, e⟩ | ⟨-, -, -, hc, -⟩ := endPage_cases w s
  · obtain ⟨hs, -⟩ := h.of_page_none hp
    rw [e, hs, if_neg WinState.noConfusion]
  · exact hc

theorem endPage_bursts {s : State} {w : Nat} (h : (s.window w).agrees) :
    (endPage w s).cpl.bursts = s.burstsLeft w := by
  rw [endPage_cpl h, State.burstsLeft]
  split <;> rfl

/-- The end of a page leaves of the port all but the list and the granted burst. -/
theorem endPage_cpl_frame (w : Nat) (s : State) :
    (endPage w s).cpl =
      { s.cpl with bursts := (endPage w s).cpl.bursts, granted := (endPage w s).cpl.granted } := by
  obtain ⟨-, e⟩ | ⟨-, -, -, hc, -⟩ := endPage_cases w s
  · rw [e]
  · rw [hc]
    split <;> rfl

theorem endPage_left {s : State} {w : Nat} (h : (s.window w).agrees) : s.pageLeft (endPage w s) w := by
  refine ⟨fun hp => ?_, fun p hp => ?_, ?_⟩
  · obtain ⟨-, e⟩ | ⟨hsome, -⟩ := endPage_cases w s
    · rw [e]
    · rw [hp] at hsome
      cases hsome
  · obtain ⟨hlist, hpaint, -, -⟩ := unlightPage_pnt p s
    have hpnt := endPage_pnt hp
    refine ⟨by rw [hpnt]; exact hlist, fun i => ?_, ?_⟩
    · rw [State.paintState, hpnt]
      exact hpaint i
    · rw [hpnt]
      refine congrArg (Option.bind _) (funext fun b => ?_)
      rw [releaseBurst, ite_not]
  · rw [endPage_cpl h]
    by_cases hs : (s.window w).state = .composing
    · rw [if_pos hs]
      refine congrArg (Option.map · _) (funext fun g => ?_)
      simp only [disown, hs, and_true] <;> rfl
    · rw [if_neg hs]
      simp only [hs, and_false, if_false]
      cases s.cpl.granted with
      | none => rfl
      | some g =>
        refine congrArg some ?_
        dsimp only
        split <;> rfl

/-- What the end of a page takes is read off the Painter, its queue apart, and the granted burst. -/
theorem State.pageLeft_congr {s t u : State} {w : Nat}
    (hpnt : u.pnt = { t.pnt with queue := u.pnt.queue }) (hg : u.cpl.granted = t.cpl.granted)
    (h : s.pageLeft t w) : s.pageLeft u w := by
  obtain ⟨hnone, hsome, hgranted⟩ := h
  refine ⟨fun hp => ?_, fun p hp => ?_, hg.trans hgranted⟩
  · rw [hpnt, hnone hp]
  · obtain ⟨hlist, hpaint, hburst⟩ := hsome p hp
    have hstates : u.pnt.states = t.pnt.states := by rw [hpnt]
    refine ⟨by rw [hpnt, hlist], fun i => ?_, by rw [hpnt, hburst]⟩
    rw [← hpaint i, State.paintState, hstates]
    rfl

/-! ## The beginning of a compose (R141, R142) -/

theorem enterFields_queue (w : Nat) (s : State) :
    (enterFields w s).pnt = { s.pnt with queue := (enterFields w s).pnt.queue } := by
  unfold enterFields
  split
  · rfl
  · split
    · rw [settleCompose_frame]
      rfl
    · rfl

theorem runAfter_pnt (a : After) (s : State) :
    (runAfter a s).pnt = { s.pnt with queue := (runAfter a s).pnt.queue } := by
  cases a with
  | nothing => rfl
  | initial => rfl
  | repaint => rfl
  | fieldsPhase w => exact enterFields_queue w s

theorem handOver_pnt (bursts : List Burst) (a : After) (s : State) :
    (handOver bursts a s).pnt = { s.pnt with queue := (handOver bursts a s).pnt.queue } := by
  obtain ⟨-, -, h⟩ | ⟨-, h⟩ | ⟨-, -, h⟩ := handOver_cases bursts a s <;> rw [h]
  · rfl
  · exact runAfter_pnt a s
  · exact runAfter_pnt a _

theorem handOver_cpl (bursts : List Burst) (a : After) (s : State) :
    (handOver bursts a s).cpl = { s.cpl with bursts := (handOver bursts a s).cpl.bursts } := by
  have hrun (u : State) : (runAfter a u).cpl = u.cpl := read_of_frame State.cpl (runAfter_frame a u) rfl
  obtain ⟨-, -, h⟩ | ⟨-, h⟩ | ⟨-, -, h⟩ := handOver_cases bursts a s <;> rw [h]
  · rfl
  · rw [hrun]
  · rw [hrun]
    rfl

/-- The state in which a compose of page p in window w is handed over: the old page has ended. -/
def State.composeOpened (s : State) (w p : Nat) : State :=
  (endPage w s).modWindow w fun v =>
    { v with state := .composing, page := some p, compose := some .bursts }

theorem beginCompose_eq (w p : Nat) (s : State) :
    beginCompose w p s =
      handOver (composeBursts (s.composeOpened w p) w p) (.fieldsPhase w) (s.composeOpened w p) := rfl

/-- A window that composes page p, as R141 leaves it. -/
def Window.composing (v : Window) (p : Nat) : Window :=
  { emptied v with state := .composing, page := some p, compose := some .bursts }

theorem composeOpened_window {s : State} {w : Nat} (h : (s.window w).agrees) (p x : Nat) :
    (s.composeOpened w p).window x = if x = w then (s.window w).composing p else s.window x := by
  refine (State.window_modWindow _ _ _ _).trans ?_
  rw [endPage_window h, if_pos rfl, endPage_window h]
  split
  · rfl
  · next hx => exact rfl

theorem composeOpened_self {s : State} {w : Nat} (h : (s.window w).agrees) (p : Nat) :
    (s.composeOpened w p).window w = (s.window w).composing p :=
  (composeOpened_window h p w).trans (if_pos rfl)

theorem composeBursts_congr {s t : State} {w : Nat} (p : Nat) (hlay : t.lay = s.lay)
    (hstraps : t.straps = s.straps) (htop : (t.window w).top = (s.window w).top)
    (hheight : (t.window w).height = (s.window w).height)
    (hback : (t.window w).background = (s.window w).background) :
    composeBursts t w p = composeBursts s w p := by
  simp only [composeBursts, hlay, hstraps, htop, hheight, hback]

theorem composeBursts_ne_nil {s : State} {w p : Nat} (h : (s.window w).height ≠ 0) :
    composeBursts s w p ≠ [] := by
  intro hnil
  have hlen := congrArg List.length hnil
  simp only [composeBursts, List.length_append, List.length_map, List.length_range,
    List.length_nil] at hlen
  omega

/-- What the window shows after the hand-over of its compose: the page in its BURSTS phase, or past it
where the list filled. -/
theorem handOver_fieldsPhase {u : State} {w p : Nat} {bs : List Burst} (hne : bs ≠ [])
    (hp : (u.window w).page = some p) (hc : (u.window w).compose = some .bursts) :
    (u.cpl.bursts.length + bs.length ≤ 1024 →
      handOver bs (.fieldsPhase w) u = listBursts (closeLast (.fieldsPhase w) bs) u) ∧
    (1024 < u.cpl.bursts.length + bs.length →
      (handOver bs (.fieldsPhase w) u).cpl.bursts =
          u.cpl.bursts ++ bs.take (1024 - u.cpl.bursts.length) ∧
        (handOver bs (.fieldsPhase w) u).pnt.queue =
          enqueueAll .initial (visibleFields u.lay.fields p (u.window w).height) u.pnt.queue ∧
        ∀ x, (handOver bs (.fieldsPhase w) u).window x =
          if x = w then
            if visibleFields u.lay.fields p (u.window w).height = [] then finishCompose (u.window w)
            else { u.window w with
              compose := some (.fields (visibleFields u.lay.fields p (u.window w).height)) }
          else u.window x) := by
  obtain ⟨-, hle, h⟩ | ⟨hnil, -⟩ | ⟨-, hgt, h⟩ := handOver_cases bs (.fieldsPhase w) u
  · exact ⟨fun _ => h, fun hgt => absurd hle (not_le.mpr hgt)⟩
  · exact absurd hnil hne
  · refine ⟨fun hle => absurd hle (not_le.mpr hgt), fun _ => ?_⟩
    rw [h, runAfter]
    refine ⟨read_of_frame (fun u => u.cpl.bursts) (enterFields_frame w _) rfl, ?_,
      fun x => enterFields_window (s := listBursts _ u) hp hc x⟩
    rw [enterFields_pnt (s := listBursts _ u) hp hc]
    rfl

/-- The window in which a compose begins: what a page brings with it apart, it stands. -/
theorem beginCompose_window {s : State} {w : Nat} (h : (s.window w).agrees)
    (hh : (s.window w).height ≠ 0) (p x : Nat) :
    (beginCompose w p s).window x =
      if x = w then
        { (s.window w).composing p with
          state := ((beginCompose w p s).window w).state
          compose := ((beginCompose w p s).window w).compose }
      else s.window x := by
  have hself := composeOpened_self h p
  have hne : composeBursts (s.composeOpened w p) w p ≠ [] :=
    composeBursts_ne_nil (by rw [hself]; exact hh)
  obtain ⟨hfits, hfull⟩ := handOver_fieldsPhase hne (by rw [hself]; rfl) (by rw [hself]; rfl)
  rw [beginCompose_eq]
  by_cases hlen : (s.composeOpened w p).cpl.bursts.length +
      (composeBursts (s.composeOpened w p) w p).length ≤ 1024
  · rw [hfits hlen]
    have hlist (x : Nat) : (listBursts (closeLast (.fieldsPhase w)
        (composeBursts (s.composeOpened w p) w p)) (s.composeOpened w p)).window x =
        (s.composeOpened w p).window x := rfl
    rw [hlist, hlist, composeOpened_window h, hself]
  · obtain ⟨-, -, hwin⟩ := hfull (not_le.mp hlen)
    rw [hwin, hwin, if_pos rfl, hself]
    split
    · split <;> rfl
    · next hx => exact (composeOpened_window h p x).trans (if_neg hx)

theorem beginCompose_begun {s : State} {w : Nat} (h : (s.window w).agrees)
    (hh : (s.window w).height ≠ 0) (p : Nat) : s.composeBegun (beginCompose w p s) w p := by
  have hself := composeOpened_self h p
  have hwin := (beginCompose_window h hh p w).trans (if_pos rfl)
  have hframe := beginCompose_frame w p s
  have hopen : (s.composeOpened w p).cpl = (endPage w s).cpl ∧
      (s.composeOpened w p).pnt = (endPage w s).pnt := ⟨rfl, rfl⟩
  have hbursts : (s.composeOpened w p).cpl.bursts = s.burstsLeft w := endPage_bursts h
  have hqueue : (s.composeOpened w p).pnt.queue = s.pnt.queue := endPage_queue w s
  have hlay : (s.composeOpened w p).lay = s.lay :=
    read_of_frame (t := endPage w s) State.lay (endPage_frame w s) rfl
  have hstraps : (s.composeOpened w p).straps = s.straps :=
    read_of_frame (t := endPage w s) State.straps (endPage_frame w s) rfl
  have hpnt := handOver_pnt (composeBursts (s.composeOpened w p) w p) (.fieldsPhase w)
    (s.composeOpened w p)
  have hcpl := handOver_cpl (composeBursts (s.composeOpened w p) w p) (.fieldsPhase w)
    (s.composeOpened w p)
  rw [← beginCompose_eq] at hpnt hcpl
  have htlay : (beginCompose w p s).lay = (s.composeOpened w p).lay :=
    (read_of_frame State.lay hframe rfl).trans hlay.symm
  have hcb : composeBursts (beginCompose w p s) w p = composeBursts (s.composeOpened w p) w p :=
    composeBursts_congr p htlay ((read_of_frame State.straps hframe rfl).trans hstraps.symm)
      (by rw [hwin, hself]) (by rw [hwin, hself]) (by rw [hwin, hself])
  refine ⟨?left, ⟨by rw [hwin]; rfl, by rw [hwin]; rfl, by rw [hwin]; rfl, by rw [hwin]; rfl, ?fits,
    ?full⟩, ?cpl⟩
  case left =>
    exact State.pageLeft_congr hpnt (by rw [hcpl]) (endPage_left h)
  case cpl =>
    rw [hcpl, hopen.1, endPage_cpl_frame]
  all_goals
    have hne : composeBursts (s.composeOpened w p) w p ≠ [] :=
      composeBursts_ne_nil (by rw [hself]; exact hh)
    obtain ⟨hfits, hfull⟩ := handOver_fieldsPhase (p := p) hne (by rw [hself]; rfl) (by rw [hself]; rfl)
    rw [hbursts, ← beginCompose_eq] at hfits hfull
    rw [hcb]
  case fits =>
    intro hlen
    have hwx : (beginCompose w p s).window w = (s.composeOpened w p).window w := by
      rw [hfits hlen]; rfl
    refine ⟨?_, by rw [hwx, hself]; rfl, by rw [hwx, hself]; rfl, ?_⟩
    · rw [hfits hlen, ← hbursts]; rfl
    · rw [hfits hlen, ← hqueue]; rfl
  case full =>
    intro hlen
    obtain ⟨hb, hq, hx⟩ := hfull hlen
    refine ⟨hb, fun set hset => ?_⟩
    have hheight : ((beginCompose w p s).window w).height = ((s.composeOpened w p).window w).height := by
      rw [hwin, hself]
    rw [htlay, hheight] at hset
    have hxw := (hx w).trans (if_pos rfl)
    rw [← hset] at hq hxw
    rw [hqueue] at hq
    refine ⟨fun i hi => ?_, fun r hr => ?_, ?_, ?_⟩
    · rw [hq]
      exact exists_initial_enqueueAll hi
    · rw [hq] at hr
      exact mem_of_mem_enqueueAll hr
    · rw [hxw, hself]
      split <;> rfl
    · rw [hxw, hself]
      split <;> rfl

/-- What a compose takes from the state before it: the port, the Painter, the fields, and the page and
state of the window. -/
theorem State.composeBegun_congr {s u t : State} {w p : Nat} (hpnt : u.pnt = s.pnt)
    (hcpl : u.cpl = s.cpl) (hlay : u.lay = s.lay) (hpage : (u.window w).page = (s.window w).page)
    (hstate : (u.window w).state = (s.window w).state) (h : u.composeBegun t w p) :
    s.composeBegun t w p := by
  unfold State.composeBegun State.pageLeft State.burstsLeft State.paintState at h ⊢
  rw [hpnt, hcpl, hlay, hpage, hstate] at h
  exact h

/-! ## Step selection (R147) -/

/-- A step of a window's program is skipped: another window shows its page. -/
def State.skips (s : State) (w i : Nat) : Prop :=
  ∃ p x, (s.stepAt w i).page = some p ∧ x ≠ w ∧ s.shows x p

theorem skips_iff {s : State} (hr : Tab.rising s.win = true) (w i : Nat) :
    (s.stepAt w i).page.any (fun q => s.shownElsewhere q w) = true ↔ s.skips w i := by
  simp only [Option.any_eq_true, State.shownElsewhere_iff hr, State.skips]
  constructor
  · rintro ⟨p, hp, x, hx, hs⟩
    exact ⟨p, x, hp, hx, hs⟩
  · rintro ⟨p, x, hp, hx, hs⟩
    exact ⟨p, hp, x, hx, hs⟩

theorem examineSteps_of_all {s : State} (hr : Tab.rising s.win = true) {w : Nat} {l : List Nat}
    (h : ∀ i ∈ l, s.skips w i) : examineSteps s w l = (l.length, none) := by
  induction l with
  | nil => rfl
  | cons i l ih =>
    rw [examineSteps, if_pos ((skips_iff hr w i).mpr (h i List.mem_cons_self)),
      ih fun j hj => h j (List.mem_cons_of_mem _ hj)]
    rfl

theorem examineSteps_of_first {s : State} (hr : Tab.rising s.win = true) {w j : Nat} {before after : List Nat}
    (h : ∀ i ∈ before, s.skips w i) (hj : ¬ s.skips w j) :
    examineSteps s w (before ++ j :: after) = (before.length, some j) := by
  induction before with
  | nil => rw [List.nil_append, examineSteps, if_neg (mt (skips_iff hr w j).mp hj)]; rfl
  | cons i l ih =>
    rw [List.cons_append, examineSteps, if_pos ((skips_iff hr w i).mpr (h i List.mem_cons_self)),
      ih fun k hk => h k (List.mem_cons_of_mem _ hk)]
    rfl

theorem stepAt_page_of_stepsFrom {s : State} {w m : Nat} {fuel i : Nat} (h : m < stepsFrom s w fuel i) :
    (s.stepAt w (i + m)).page.isSome = true := by
  induction fuel generalizing i m with
  | zero => cases h
  | succ fuel ih =>
    unfold stepsFrom at h
    split at h
    · next hi =>
      cases m with
      | zero => exact hi
      | succ m =>
        have := ih (Nat.lt_of_succ_lt_succ h)
        rwa [Nat.add_right_comm] at this
    · cases h

theorem stepAt_page_of_lt {s : State} {w m : Nat} (h : m < s.programLength w) :
    ∃ q, (s.stepAt w m).page = some q := by
  have := stepAt_page_of_stepsFrom h
  rw [Nat.zero_add] at this
  exact Option.isSome_iff_exists.mp this

theorem tallySkips_eq (n : Nat) (s : State) :
    ∃ k, tallySkips n s =
        { s with sts := { s.sts with tallies := { s.sts.tallies with skips := k } } } ∧
      k.toNat = min 65535 (s.sts.tallies.skips.toNat + n) := by
  induction n generalizing s with
  | zero => exact ⟨s.sts.tallies.skips, rfl, by omega⟩
  | succ n ih =>
    obtain ⟨k, hk, hcount⟩ := ih s.tallySkip
    refine ⟨k, hk, ?_⟩
    have hone : s.tallySkip.sts.tallies.skips.toNat = min 65535 (s.sts.tallies.skips.toNat + 1) :=
      bumpTally_toNat _
    omega

/-- The state that a selection leaves at step j after n skips, before a compose. -/
def State.steppedTo (s : State) (w n j : Nat) : State :=
  (tallySkips n s).modWindow w (atStep j (s.stepAt w j).dwell)

/-- The first step examined by a selection from an index. -/
def State.firstStep (s : State) (w start : Nat) : Nat := if start < s.programLength w then start else 0

theorem selectStep_of_all {s : State} {w start : Nat} (hr : Tab.rising s.win = true)
    (hn : 0 < s.programLength w) (h : ∀ m, m < s.programLength w → s.skips w m) :
    selectStep w start s = s.steppedTo w (s.programLength w) (s.firstStep w start) := by
  have hall : examineSteps s w ((List.range (s.programLength w)).map fun k =>
      (s.firstStep w start + k) % s.programLength w) = (s.programLength w, none) := by
    rw [examineSteps_of_all hr, List.length_map, List.length_range]
    intro i hi
    obtain ⟨k, -, rfl⟩ := List.mem_map.mp hi
    exact h _ (Nat.mod_lt _ hn)
  unfold State.firstStep at hall
  unfold selectStep
  simp only [hn.ne', if_false, hall]
  rfl

theorem selectStep_of_first {s : State} {w start n q : Nat} (hr : Tab.rising s.win = true)
    (hn : n < s.programLength w)
    (h : ∀ m, m < n → s.skips w ((s.firstStep w start + m) % s.programLength w))
    (hq : (s.stepAt w ((s.firstStep w start + n) % s.programLength w)).page = some q)
    (hnot : ∀ x, x ≠ w → ¬ s.shows x q) :
    selectStep w start s =
      if (s.window w).page = some q then
        s.steppedTo w n ((s.firstStep w start + n) % s.programLength w)
      else
        beginCompose w q (s.steppedTo w n ((s.firstStep w start + n) % s.programLength w)) := by
  have hfirst : examineSteps s w ((List.range (s.programLength w)).map fun k =>
      (s.firstStep w start + k) % s.programLength w) =
        (n, some ((s.firstStep w start + n) % s.programLength w)) := by
    have hrange : List.range (s.programLength w) =
        List.range n ++ n :: (List.range (s.programLength w - (n + 1))).map (n + 1 + ·) := by
      conv_lhs => rw [← Nat.add_sub_cancel' hn]
      rw [List.range_add, List.range_succ, List.append_assoc]
      rfl
    rw [hrange, List.map_append, List.map_cons, examineSteps_of_first hr, List.length_map,
      List.length_range]
    · intro i hi
      obtain ⟨k, hk, rfl⟩ := List.mem_map.mp hi
      exact h k (List.mem_range.mp hk)
    · rintro ⟨p, x, hp, hx, hs⟩
      obtain rfl := Option.some.inj (hp.symm.trans hq)
      exact hnot x hx hs
  unfold State.firstStep at hfirst hq ⊢
  unfold selectStep
  simp only [(Nat.zero_lt_of_lt hn).ne', if_false, hfirst, hq]
  rfl

theorem steppedTo_window (s : State) (w n j x : Nat) :
    (s.steppedTo w n j).window x =
      if x = w then atStep j (s.stepAt w j).dwell (s.window w) else s.window x := by
  have hsame (u : Nat) : (tallySkips n s).window u = s.window u := by
    rw [State.window, State.tallySkips_win]
    rfl
  refine (State.window_modWindow _ _ _ _).trans ?_
  rw [hsame, hsame]

/-- A step taken changes window w and counts the skips. -/
theorem steppedTo_frame (s : State) (w n j : Nat) :
    ∃ k, s.steppedTo w n j =
        { s with
          win := (s.steppedTo w n j).win
          sts := { s.sts with tallies := { s.sts.tallies with skips := k } } } ∧
      k.toNat = min 65535 (s.sts.tallies.skips.toNat + n) := by
  obtain ⟨k, hk, hcount⟩ := tallySkips_eq n s
  refine ⟨k, ?_, hcount⟩
  unfold State.steppedTo
  rw [hk]
  rfl

/-- What a selection does, whichever step it takes. -/
theorem selectStep_rest {s t : State} {w n j : Nat}
    (ht : t = s.steppedTo w n j ∨ ∃ q, ((s.steppedTo w n j).window w).agrees ∧
      (s.window w).height ≠ 0 ∧ t = beginCompose w q (s.steppedTo w n j)) :
    (∀ x, x ≠ w → t.window x = s.window x) ∧
    (t.window w).top = (s.window w).top ∧ (t.window w).height = (s.window w).height ∧
    (t.window w).background = (s.window w).background ∧
    (t.window w).override = (s.window w).override ∧
    (t.window w).step = j ∧ (t.window w).dwell = 16 * (s.stepAt w j).dwell ∧
    (t.window w).carousel = (s.window w).carousel ∧ (t.window w).advanceDue = false ∧
    (t.window w).dwellDue = false ∧
    t.sts.tallies.skips.toNat = min 65535 (s.sts.tallies.skips.toNat + n) ∧
    t = { s with
      pnt := t.pnt, win := t.win, cpl := t.cpl
      sts := { s.sts with tallies := { s.sts.tallies with skips := t.sts.tallies.skips } } } := by
  obtain ⟨k, hframe, hcount⟩ := steppedTo_frame s w n j
  have hwin := steppedTo_window s w n j
  have hself := (hwin w).trans (if_pos rfl)
  obtain rfl | ⟨q, ha, hh, rfl⟩ := ht
  · refine ⟨fun x hx => (hwin x).trans (if_neg hx), by rw [hself]; rfl, by rw [hself]; rfl,
      by rw [hself]; rfl, by rw [hself]; rfl, by rw [hself]; rfl, by rw [hself]; rfl,
      by rw [hself]; rfl, by rw [hself]; rfl, by rw [hself]; rfl, by rw [hframe, hcount], ?_⟩
    rw [hframe]
  · have hwin' := beginCompose_window (p := q) ha (by rw [hself]; exact hh)
    have hself' := (hwin' w).trans (if_pos rfl)
    rw [hself] at hself'
    have hframe' := beginCompose_frame w q (s.steppedTo w n j)
    refine ⟨fun x hx => (hwin' x).trans ((if_neg hx).trans ((hwin x).trans (if_neg hx))),
      by rw [hself']; rfl, by rw [hself']; rfl, by rw [hself']; rfl, by rw [hself']; rfl,
      by rw [hself']; rfl, by rw [hself']; rfl, by rw [hself']; rfl, by rw [hself']; rfl,
      by rw [hself']; rfl, by rw [hframe', hframe, hcount], ?_⟩
    rw [hframe', hframe]

theorem firstStep_lt {s : State} {w : Nat} (start : Nat) (hn : 0 < s.programLength w) :
    s.firstStep w start < s.programLength w := by
  unfold State.firstStep
  split
  · assumption
  · exact hn

/-- A program with a step that is not skipped has a first such step in the order of the selection. -/
theorem exists_first_step {s : State} {w : Nat} (start : Nat) {m : Nat} (hm : m < s.programLength w)
    (h : ¬ s.skips w m) :
    ∃ n q, n < s.programLength w ∧
      (∀ m, m < n → s.skips w ((s.firstStep w start + m) % s.programLength w)) ∧
      (s.stepAt w ((s.firstStep w start + n) % s.programLength w)).page = some q ∧
      ∀ x, x ≠ w → ¬ s.shows x q := by
  classical
  have hfirst := firstStep_lt start (Nat.zero_lt_of_lt hm)
  have hex : ∃ n, ¬ s.skips w ((s.firstStep w start + n) % s.programLength w) := by
    refine ⟨s.programLength w - s.firstStep w start + m, ?_⟩
    rwa [← Nat.add_assoc, Nat.add_sub_cancel' hfirst.le, Nat.add_mod_left, Nat.mod_eq_of_lt hm]
  have hnot := Nat.find_spec hex
  have hlt : Nat.find hex < s.programLength w := by
    by_contra hge
    refine Nat.find_min hex (m := Nat.find hex - s.programLength w) (by omega) ?_
    rwa [← Nat.add_mod_right, Nat.add_assoc, Nat.sub_add_cancel (not_lt.mp hge)]
  obtain ⟨q, hq⟩ := stepAt_page_of_lt (s := s) (w := w)
    (Nat.mod_lt (s.firstStep w start + Nat.find hex) (Nat.zero_lt_of_lt hm))
  exact ⟨Nat.find hex, q, hlt, fun m hm => not_not.mp (Nat.find_min hex hm), hq,
    fun x hx hs => hnot ⟨q, x, hq, hx, hs⟩⟩

theorem selectStep_selected {s : State} {w : Nat} (start : Nat) (h : s.readyAt w)
    (hh : (s.window w).height ≠ 0) (hn : 0 < s.programLength w) :
    s.selected (selectStep w start s) w start := by
  rintro _ rfl
  have hr := h.rising
  have hagrees (n j : Nat) : ((s.steppedTo w n j).window w).agrees := by
    rw [steppedTo_window, if_pos rfl]
    exact agrees_atStep h.2.2.2.1 _ _
  by_cases hall : ∀ m, m < s.programLength w → s.skips w m
  · have heq := selectStep_of_all (start := start) hr hn hall
    obtain ⟨k, hframe, hcount⟩ :=
      steppedTo_frame s w (s.programLength w) (s.firstStep w start)
    have hself := (steppedTo_window s w (s.programLength w) (s.firstStep w start) w).trans (if_pos rfl)
    obtain ⟨hother, htop, hheight, hback, hover, -, -, -, -, -, hskips, hrest⟩ :=
      selectStep_rest (.inl heq)
    refine ⟨fun n q hlt hbefore hq hnot => ?_, fun _ => ⟨?_, hskips, ?_, ?_⟩, hother, htop, hheight,
      hback, hover, hrest⟩
    · obtain ⟨p, x, hp, hx, hs⟩ := hall _ (Nat.mod_lt _ hn)
      obtain rfl := Option.some.inj (hp.symm.trans hq)
      exact absurd hs (hnot x hx)
    · rw [heq, hself]
      rfl
    · rw [heq, hframe]
    · rw [heq, hframe]
  · obtain ⟨m, hm⟩ := not_forall.mp hall
    obtain ⟨hm, hnot⟩ := Classical.not_imp.mp hm
    obtain ⟨n, q, hlt, hbefore, hq, hfree⟩ := exists_first_step start hm hnot
    have heq := selectStep_of_first hr hlt hbefore hq hfree
    obtain ⟨k, hframe, -⟩ :=
      steppedTo_frame s w n ((s.firstStep w start + n) % s.programLength w)
    have hself := (steppedTo_window s w n ((s.firstStep w start + n) % s.programLength w) w).trans
      (if_pos rfl)
    obtain ⟨hother, htop, hheight, hback, hover, hstep, hdwell, hcar, hadv, hdue, hskips, hrest⟩ :=
      selectStep_rest (s := s) (t := selectStep w start s) (w := w) (n := n)
        (j := (s.firstStep w start + n) % s.programLength w) (by
          rw [heq]
          split
          · exact .inl rfl
          · exact .inr ⟨q, hagrees _ _, hh, rfl⟩)
    refine ⟨fun n' q' hlt' hbefore' hq' hfree' => ?_, fun hno => absurd (hno m hm) hnot, hother, htop,
      hheight, hback, hover, hrest⟩
    obtain rfl : n' = n := by
      rcases lt_trichotomy n' n with hnn | hnn | hnn
      · obtain ⟨p, x, hp, hx, hs⟩ := hbefore n' hnn
        obtain rfl := Option.some.inj (hp.symm.trans hq')
        exact absurd hs (hfree' x hx)
      · exact hnn
      · obtain ⟨p, x, hp, hx, hs⟩ := hbefore' n hnn
        obtain rfl := Option.some.inj (hp.symm.trans hq)
        exact absurd hs (hfree x hx)
    obtain rfl := Option.some.inj (hq'.symm.trans hq)
    refine ⟨?_, hstep, hdwell, hcar, hadv, hdue, fun hpage => ?_, fun hpage => ?_, hskips⟩
    · rw [heq]
      split
      · next hpage => rw [hself, ← hpage]; rfl
      · rw [beginCompose_window (hagrees _ _) (by rw [hself]; exact hh), if_pos rfl]
        rfl
    · rw [heq, if_pos hpage, hself]
      exact ⟨rfl, by rw [hframe], by rw [hframe]⟩
    · rw [heq, if_neg hpage]
      exact State.composeBegun_congr (by rw [hframe]) (by rw [hframe]) (by rw [hframe])
        (by rw [hself]; rfl) (by rw [hself]; rfl)
        (beginCompose_begun (hagrees _ _) (by rw [hself]; exact hh) q')

theorem advance_advanced {s : State} {w : Nat} (h : s.readyAt w) (hh : (s.window w).height ≠ 0) :
    s.advanced (advance w s) w := by
  refine ⟨fun h0 => ?_, fun hn => ?_⟩
  · rw [advance, if_pos h0]
    exact ⟨State.window_modWindow_self _ _ _, fun x hx => (State.window_modWindow _ _ _ _).trans (if_neg hx),
      rfl⟩
  · rw [advance, if_neg hn.ne']
    exact selectStep_selected _ h hh hn

/-! ## The dwell, THAW and SHOW -/

/-- A window other than w stands through an advance. -/
theorem State.advanced.other {s t : State} {w : Nat} (h : s.advanced t w) {x : Nat} (hx : x ≠ w) :
    t.window x = s.window x := by
  obtain ⟨hstop, hselect⟩ := h
  by_cases h0 : s.programLength w = 0
  · obtain ⟨-, hother, -⟩ := hstop h0
    exact hother x hx
  · obtain ⟨-, -, hother, -⟩ := hselect (Nat.pos_of_ne_zero h0) _ rfl
    exact hother x hx

theorem agrees_dwell {v : Window} (h : v.agrees) (d : Nat) (due : Bool) :
    { v with dwell := d, dwellDue := due }.agrees := h

/-- Settles O40: a dwell that counts and is marked as run out expires. -/
theorem dwellExpires : Obligations.DwellExpires := by
  rintro window w u s hs hw rfl rfl hcar hdwell hdue hadv hstate
  have hexec := exec_of_running (i := .dwellExpiry window)
    (f := takeDwellExpiry window.toNat) (fun _ => rfl) hs
  have hcounts : expiresNow (s.window window.toNat) = true := by
    simp [expiresNow, dwellCounts, hcar, hdwell, hdue, hadv, hstate]
  rw [takeDwellExpiry, if_pos hcounts] at hexec
  refine ⟨_, hexec, fun hf => ?_, fun hf => ?_⟩
  · have hfrozen : ((s.modWindow window.toNat fun v =>
        { v with dwell := 0, dwellDue := false }).window window.toNat).state = .frozen := by
      rw [State.window_modWindow_self]
      exact hf
    rw [expireDwell, if_pos hfrozen, State.modWindow_modWindow]
    exact ⟨State.window_modWindow_self _ _ _,
      fun x hx => (State.window_modWindow _ _ _ _).trans (if_neg hx), rfl⟩
  · have hsound : (s.modWindow window.toNat fun v => { v with dwell := 0, dwellDue := false }).windowsSound :=
      hw.modWindow window.isLt (fun ha => agrees_dwell ha _ _) rfl
    rw [expireDwell, if_neg (by rw [State.window_modWindow_self]; exact hf)]
    refine advance_advanced (hsound.readyAt _) ?_
    rw [State.window_modWindow_self]
    exact (hw.1.agrees _).height_ne_of_carousel (by rw [hcar]; exact CarouselState.noConfusion)

theorem unfreeze_window (s : State) (w x : Nat) :
    (unfreeze w s).window x =
      if x = w then { s.window w with state := .showing, dirty := false } else s.window x := by
  rw [State.window, unfreeze_win]
  exact State.window_modWindow s w x fun v => { v with state := .showing, dirty := false }

theorem unfreeze_pnt (w : Nat) (s : State) :
    (unfreeze w s).pnt =
      { s.pnt with queue :=
          if (s.window w).dirty then enqueueAll .thaw (s.visible w) s.pnt.queue else s.pnt.queue } := by
  unfold unfreeze
  dsimp only
  split <;> rfl

/-- Settles O38: by the state of the window; the advance follows the thaw. -/
theorem thawByState : Obligations.ThawByState := by
  rintro rx window w s hh ha hw rfl hle
  have hexec := exec_onWindow_of_le (i := .thaw rx window) (act := takeThaw) (fun _ => rfl) hh ha hle
  have hsound : (s.arrived rx).windowsSound := State.windowsSound_congr rfl hw
  have hwindow (x : Nat) : (s.arrived rx).window x = s.window x := rfl
  by_cases hs : (s.window window.toNat).state = .frozen
  · have hthaw : takeThaw window.toNat (s.arrived rx) =
        if (s.window window.toNat).advanceDue then
          advance window.toNat (unfreeze window.toNat (s.arrived rx))
        else unfreeze window.toNat (s.arrived rx) := by
      simp only [takeThaw, hwindow, hs]
    rw [hthaw] at hexec
    have hwin := unfreeze_window (s.arrived rx) window.toNat
    have hpnt := unfreeze_pnt window.toNat (s.arrived rx)
    refine ⟨_, unfreeze window.toNat (s.arrived rx), hexec,
      fun _ => ⟨rfl, (hwin _).trans (if_pos rfl), fun hd => ?_, fun hd => ?_, fun hadv => ?_,
        fun hadv => ?_⟩,
      fun hne => absurd hs hne, fun hc => ?_, fun hc => ?_, fun x hx => (hwin x).trans (if_neg hx), ?_⟩
    · rw [hpnt, hwindow, hd]
      rfl
    · rw [hpnt, hwindow, hd]
      refine ⟨fun i hi => ?_, fun q hq => mem_of_mem_enqueueAll hq⟩
      obtain ⟨q, hq, hqi, hrank⟩ := exists_mem_enqueueAll (kind := .thaw) (l := s.pnt.queue) hi
      exact ⟨q, hq, hqi, kind_of_thaw_rank hrank⟩
    · rw [hadv]
      rfl
    · rw [hadv]
      refine advance_advanced (unfreeze_ready hsound (Nat.lt_succ_of_le hle) hs) ?_
      rw [hwin, if_pos rfl]
      exact (hw.1.agrees _).height_ne_of_state (by rw [hs]; exact WinState.noConfusion)
    · rw [hs] at hc
      cases hc
    · rw [hs] at hc
      obtain hc | hc := hc <;> cases hc
    · refine (unfreeze_frame _ _).trans ?_
      rw [hpnt]
      rfl
  · refine ⟨_, _, hexec, fun hf => absurd hf hs, fun _ => rfl, fun hc => ?_, fun hc => ?_, fun x hx => ?_,
      ?_⟩
    · have hthaw : takeThaw window.toNat (s.arrived rx) =
          (s.arrived rx).modWindow window.toNat fun v => { v with freezeReq := false } := by
        simp only [takeThaw, hwindow, hc]
      rw [hthaw]
      exact ⟨State.window_modWindow_self _ _ _, rfl⟩
    · obtain hc | hc := hc <;> simp only [takeThaw, hwindow, hc]
    · cases hc : (s.window window.toNat).state with
      | frozen => exact absurd hc hs
      | composing =>
        simp only [takeThaw, hwindow, hc]
        exact (State.window_modWindow _ _ _ _).trans (if_neg hx)
      | showing => simp only [takeThaw, hwindow, hc]
      | empty => simp only [takeThaw, hwindow, hc]
    · cases hc : (s.window window.toNat).state with
      | frozen => exact absurd hc hs
      | composing =>
        simp only [takeThaw, hwindow, hc]
        rfl
      | showing =>
        simp only [takeThaw, hwindow, hc]
        rfl
      | empty =>
        simp only [takeThaw, hwindow, hc]
        rfl

theorem pinned_eq (v : Window) :
    pinned v = { v with
      carousel := if v.carousel = .running then .pinned else v.carousel
      advanceDue := (pinned v).advanceDue, dwellDue := (pinned v).dwellDue } := by
  unfold pinned
  split <;> rfl

theorem agrees_pinned {v : Window} (h : v.agrees) (hh : v.height ≠ 0) : (pinned v).agrees := by
  unfold pinned
  split
  · obtain ⟨hpage, hcompose, hdirty, hfreeze, -, -⟩ := h
    exact ⟨hpage, hcompose, hdirty, hfreeze, nofun, fun h0 => absurd h0 hh⟩
  · exact h

theorem State.shownElsewhere_eq_false {s : State} (hr : Tab.rising s.win = true) {p w : Nat}
    (h : ∀ u, u ≠ w → ¬ s.shows u p) : s.shownElsewhere p w = false := by
  rw [Bool.eq_false_iff, ne_eq, State.shownElsewhere_iff hr]
  rintro ⟨u, hu, hs⟩
  exact h u hu hs

theorem windowExists_of_pos {s : State} {w : Nat} (h : 0 < (s.window w).height) :
    s.windowExists w = true := decide_eq_true h

theorem readPage_of_le {b : Byte} (h : b.toNat ≤ 31) : readPage b = some b.toNat :=
  readBelow_of_lt (Nat.lt_succ_of_le h)

theorem takeShow_of_free {s : State} {window page : Byte} (n : Station) (hr : Tab.rising s.win = true)
    (hw : window.toNat ≤ 7) (hp : page.toNat ≤ 31) (hh : 0 < (s.window window.toNat).height)
    (hfree : ∀ w, w ≠ window.toNat → ¬ s.shows w page.toNat) :
    takeShow n window page s = showTaken window.toNat page.toNat s := by
  simp only [takeShow, readWindow_of_le hw, readPage_of_le hp, windowExists_of_pos hh, Bool.not_true,
    Bool.false_eq_true, if_false, State.shownElsewhere_eq_false hr hfree]

theorem takeShow_of_shown {s : State} {window page : Byte} {w : Nat} (n : Station)
    (hr : Tab.rising s.win = true) (hw : window.toNat ≤ 7) (hp : page.toNat ≤ 31)
    (hh : 0 < (s.window window.toNat).height) (hne : w ≠ window.toNat) (hs : s.shows w page.toNat) :
    takeShow n window page s = s.refuse 2 1 .busy n := by
  have hshown : s.shownElsewhere page.toNat window.toNat = true :=
    (State.shownElsewhere_iff hr _ _).mpr ⟨w, hne, hs⟩
  simp only [takeShow, readWindow_of_le hw, readPage_of_le hp, windowExists_of_pos hh, Bool.not_true,
    Bool.false_eq_true, if_false, hshown, if_true]
  rfl

theorem closeLast_append (a : After) (l : List Burst) (b : Burst) :
    closeLast a (l ++ [b]) = l ++ [{ b with after := a }] := by
  induction l with
  | nil => rfl
  | cons c l ih =>
    cases l with
    | nil => rfl
    | cons d l => exact congrArg (c :: ·) ih

/-- Settles O34: the pinning leaves the window its page and state, so that the compose is the one of the
state before it. -/
theorem showComposes : Obligations.ShowComposes := by
  refine ⟨fun rx window page s hh ha hw hle hpage hheight hfree => ?taken, fun w p s v hv => ?bursts,
    closeLast_append, fun rx window page w s hh ha hw hle hpage hheight hne hs => ?busy⟩
  case bursts =>
    subst hv
    simp only [composeBursts, Bool.decide_and]
    rfl
  case busy =>
    have hexec := exec_command (i := .showPage rx window page) (fun _ => rfl) hh ha
    rw [takeShow_of_shown (s := s.arrived rx) _ hw.1.rising hle hpage hheight hne hs,
      State.refuse_eq (reason := .busy) nofun] at hexec
    exact ⟨_, hexec, rfl, rfl⟩
  case taken =>
    have hexec := exec_command (i := .showPage rx window page) (fun _ => rfl) hh ha
    rw [takeShow_of_free (s := s.arrived rx) _ hw.1.rising hle hpage hheight hfree] at hexec
    refine ⟨_, _, hexec, rfl, ?_⟩
    generalize hu : (s.arrived rx).modWindow window.toNat pinned = u
    have hself : u.window window.toNat = pinned (s.window window.toNat) := by
      rw [← hu]
      exact State.window_modWindow_self _ _ _
    have hother (x : Nat) (hx : x ≠ window.toNat) : u.window x = s.window x := by
      rw [← hu]
      exact (State.window_modWindow _ _ _ _).trans (if_neg hx)
    have hframe : u = { s.arrived rx with win := u.win } := by rw [← hu]; rfl
    by_cases hp : (s.window window.toNat).page = some page.toNat
    · have htaken : showTaken window.toNat page.toNat (s.arrived rx) = u := (if_pos hp).trans hu
      rw [htaken, hself, pinned_eq]
      exact ⟨hp, rfl, rfl, rfl, rfl, rfl, rfl, rfl, fun hne => absurd hp hne,
        fun _ => ⟨rfl, rfl, by rw [hframe]; rfl, by rw [hframe]; rfl⟩, hother,
        by rw [hframe]⟩
    · have htaken : showTaken window.toNat page.toNat (s.arrived rx) =
          beginCompose window.toNat page.toNat u := (if_neg hp).trans (by rw [hu])
      have hagrees : (u.window window.toNat).agrees := by
        rw [hself]
        exact agrees_pinned (hw.1.agrees _) hheight.ne'
      have huh : (u.window window.toNat).height ≠ 0 := by
        rw [hself, pinned_eq]
        exact hheight.ne'
      have hwin := beginCompose_window hagrees huh page.toNat
      have hv := (hwin window.toNat).trans (if_pos rfl)
      rw [hself, pinned_eq] at hv
      rw [htaken, hv]
      refine ⟨rfl, rfl, rfl, rfl, rfl, rfl, rfl, rfl, fun _ => ?_, fun h => absurd h hp,
        fun x hx => (hwin x).trans ((if_neg hx).trans (hother x hx)), ?_⟩
      · exact State.composeBegun_congr (by rw [hframe]; rfl) (by rw [hframe]; rfl) (by rw [hframe]; rfl)
          (by rw [hself, pinned_eq]) (by rw [hself, pinned_eq])
          (beginCompose_begun hagrees huh page.toNat)
      · refine (beginCompose_frame _ _ u).trans ?_
        rw [hframe]

/-! ## RELEASE and RUN (R151, R152) -/

theorem expireDwell_of_frozen {s : State} {w : Nat} (h : (s.window w).state = .frozen) :
    expireDwell w s = s.modWindow w fun v => { v with advanceDue := true, dwellDue := false } := if_pos h

theorem expireDwell_of_ne {s : State} {w : Nat} (h : (s.window w).state ≠ .frozen) :
    expireDwell w s = advance w s := if_neg h

theorem resumeStep_of_no_steps {s : State} {w : Nat} (h : s.programLength w = 0) :
    resumeStep w s = s.modWindow w stopped := if_pos h

theorem resumeStep_of_past {s : State} {w : Nat} (hn : 0 < s.programLength w)
    (h : s.programLength w ≤ (s.window w).step ∨ (s.window w).dwell = 0) :
    resumeStep w s = expireDwell w (s.modWindow w fun v => { v with dwell := 0 }) := by
  simp only [resumeStep, hn.ne', if_false, h, if_true]

theorem resumeStep_of_shown {s : State} {w q : Nat} (hstep : (s.window w).step < s.programLength w)
    (hdwell : (s.window w).dwell ≠ 0) (hq : (s.stepAt w (s.window w).step).page = some q)
    (h : s.shownElsewhere q w = true) : resumeStep w s = expireDwell w s.tallySkip := by
  simp only [resumeStep, (Nat.zero_lt_of_lt hstep).ne', not_le.mpr hstep, hdwell, or_false, if_false, hq,
    h, if_true]

theorem resumeStep_of_free {s : State} {w q : Nat} (hstep : (s.window w).step < s.programLength w)
    (hdwell : (s.window w).dwell ≠ 0) (hq : (s.stepAt w (s.window w).step).page = some q)
    (h : s.shownElsewhere q w = false) :
    resumeStep w s = if (s.window w).page = some q then s else beginCompose w q s := by
  simp only [resumeStep, (Nat.zero_lt_of_lt hstep).ne', not_le.mpr hstep, hdwell, or_false, if_false, hq,
    h, Bool.false_eq_true]

/-- The windows that show a page stand where window w changes in its carousel alone. -/
theorem shows_modWindow {s : State} {w x : Nat} (f : Window → Window) (hx : x ≠ w) (p : Nat) :
    (s.modWindow w f).shows x p ↔ s.shows x p := by
  rw [State.shows, State.shows, State.window_modWindow, if_neg hx]

/-- The state of a RELEASE or RUN that has set the carousel RUNNING. -/
def State.unpinned (s : State) (w : Nat) : State := s.modWindow w Machine.unpinned

theorem unpinned_window (s : State) (w x : Nat) :
    (s.unpinned w).window x = if x = w then { s.window w with carousel := .running } else s.window x :=
  State.window_modWindow s w x Machine.unpinned

theorem unpinned_self (s : State) (w : Nat) :
    (s.unpinned w).window w = { s.window w with carousel := .running } :=
  (unpinned_window s w w).trans (if_pos rfl)

theorem unpinned_sound {s : State} {w : Nat} (h : s.windowsSound) (hw : w < 8)
    (hh : (s.window w).height ≠ 0) : (s.unpinned w).windowsSound := unpinned_keeps h hw hh

theorem unpinned_programLength (s : State) (w u : Nat) :
    (s.unpinned w).programLength u = s.programLength u := State.programLength_modWindow s w u _

/-- A window of the resumed state that is not w is that of the state before it. -/
theorem unpinned_of_ne (s : State) {w x : Nat} (hx : x ≠ w) : (s.unpinned w).window x = s.window x :=
  (unpinned_window s w x).trans (if_neg hx)

section
variable {s : State} {w : Nat} (h : s.windowsSound) (hw : w < 8) (hcar : (s.window w).carousel = .pinned)
include h hcar

theorem height_ne_of_pinned : (s.window w).height ≠ 0 :=
  (h.1.agrees w).height_ne_of_carousel (by rw [hcar]; exact CarouselState.noConfusion)

omit h in
theorem release_no_steps (hn : s.programLength w = 0) :
    takeRelease w s = s.modWindow w fun v => stopped (unpinned v) := by
  rw [takeRelease, if_pos hcar]
  refine (resumeStep_of_no_steps (s := s.unpinned w) ?_).trans (State.modWindow_modWindow _ _ _ _)
  rwa [unpinned_programLength]

omit h in
theorem release_past (hn : 0 < s.programLength w)
    (hpast : s.programLength w ≤ (s.window w).step ∨ (s.window w).dwell = 0) :
    takeRelease w s =
      expireDwell w (s.modWindow w fun v => { v with carousel := .running, dwell := 0 }) := by
  rw [takeRelease, if_pos hcar]
  refine (resumeStep_of_past (s := s.unpinned w) ?_ ?_).trans
    (congrArg (expireDwell w) (State.modWindow_modWindow _ _ _ _))
  · rwa [unpinned_programLength]
  · rwa [unpinned_programLength, unpinned_self]

include hw in
theorem release_shown {q x : Nat} (hstep : (s.window w).step < s.programLength w)
    (hdwell : (s.window w).dwell ≠ 0) (hq : (s.stepAt w (s.window w).step).page = some q) (hx : x ≠ w)
    (hs : s.shows x q) : takeRelease w s = expireDwell w (s.tallySkip.unpinned w) := by
  rw [takeRelease, if_pos hcar]
  refine resumeStep_of_shown (s := s.unpinned w) (q := q) ?_ ?_ ?_ ?_
  · rwa [unpinned_programLength, unpinned_self]
  · rwa [unpinned_self]
  · rwa [unpinned_self]
  · exact (State.shownElsewhere_iff
      (unpinned_sound h hw (height_ne_of_pinned h hcar)).1.rising _ _).mpr
      ⟨x, hx, (shows_modWindow _ hx q).mpr hs⟩

include hw in
theorem release_free {q : Nat} (hstep : (s.window w).step < s.programLength w)
    (hdwell : (s.window w).dwell ≠ 0) (hq : (s.stepAt w (s.window w).step).page = some q)
    (hfree : ∀ x, x ≠ w → ¬ s.shows x q) :
    takeRelease w s =
      if (s.window w).page = some q then s.unpinned w else beginCompose w q (s.unpinned w) := by
  rw [takeRelease, if_pos hcar]
  have hpage : ((s.unpinned w).window w).page = (s.window w).page := by rw [unpinned_self]
  rw [← hpage]
  refine resumeStep_of_free (s := s.unpinned w) ?_ ?_ ?_ ?_
  · rwa [unpinned_programLength, unpinned_self]
  · rwa [unpinned_self]
  · rwa [unpinned_self]
  · exact State.shownElsewhere_eq_false
      (unpinned_sound h hw (height_ne_of_pinned h hcar)).1.rising
      fun x hx hs => hfree x hx ((shows_modWindow _ hx q).mp hs)

/-- A state whose window w has been changed in carousel and dwell alone advances as R149 has it. -/
theorem expireDwell_advanced {u : State} {f : Window → Window} (hu : u.win = s.win)
    (hw : w < 8) (hf : f (s.window w) = { s.window w with
      carousel := .running, dwell := (f (s.window w)).dwell, dwellDue := (f (s.window w)).dwellDue })
    (hs : (s.window w).state ≠ .frozen) :
    (u.modWindow w f).advanced (expireDwell w (u.modWindow w f)) w := by
  have huw : u.window w = s.window w := by rw [State.window, hu]; rfl
  have hself : (u.modWindow w f).window w = f (s.window w) := by
    rw [State.window_modWindow_self, huw]
  have hh := height_ne_of_pinned h hcar
  have hsound : (u.modWindow w f).windowsSound := by
    refine (State.windowsSound_congr hu h).modWindow hw (fun ha => ?_) ?_
    · rw [huw, hf]
      exact agrees_dwell (agrees_carousel (huw ▸ ha) hh .running) _ _
    · rw [huw, hf]
  rw [expireDwell_of_ne (by rw [hself, hf]; exact hs)]
  exact advance_advanced (hsound.readyAt w) (by rw [hself, hf]; exact hh)

end

theorem takeRelease_of_ne {s : State} {w : Nat} (h : (s.window w).carousel ≠ .pinned) :
    takeRelease w s = s := if_neg h

/-- The other windows stand through a RELEASE, whichever way the step goes on. -/
theorem takeRelease_other {s : State} {w x : Nat} (h : s.windowsSound) (hw : w < 8) (hx : x ≠ w) :
    (takeRelease w s).window x = s.window x := by
  have hmod (u : State) (hu : u.win = s.win) (f : Window → Window) :
      (u.modWindow w f).window x = s.window x := by
    rw [State.window_modWindow, if_neg hx, State.window, hu]
    rfl
  by_cases hcar : (s.window w).carousel = .pinned
  case neg => rw [takeRelease_of_ne hcar]
  rcases Nat.eq_zero_or_pos (s.programLength w) with hn | hn
  · rw [release_no_steps hcar hn, hmod s rfl]
  by_cases hpast : s.programLength w ≤ (s.window w).step ∨ (s.window w).dwell = 0
  · rw [release_past hcar hn hpast]
    by_cases hs : (s.window w).state = .frozen
    · rw [expireDwell_of_frozen (by rw [State.window_modWindow_self]; exact hs),
        State.modWindow_modWindow, hmod s rfl]
    · rw [(expireDwell_advanced h hcar (u := s) (f := fun v => { v with carousel := .running, dwell := 0 })
        rfl hw rfl hs).other hx, hmod s rfl]
  obtain ⟨hstep, hdwell⟩ := not_or.mp hpast
  obtain ⟨q, hq⟩ := stepAt_page_of_lt (not_le.mp hstep)
  by_cases hfree : ∀ y, y ≠ w → ¬ s.shows y q
  · rw [release_free h hw hcar (not_le.mp hstep) hdwell hq hfree]
    split
    · exact hmod s rfl _
    · have hh := height_ne_of_pinned h hcar
      rw [beginCompose_window ((unpinned_sound h hw hh).1.agrees w) (by rw [unpinned_self]; exact hh),
        if_neg hx, unpinned_of_ne _ hx]
  · obtain ⟨y, hy⟩ := not_forall.mp hfree
    obtain ⟨hy, hs⟩ := Classical.not_imp.mp hy
    rw [release_shown h hw hcar (not_le.mp hstep) hdwell hq hy (not_not.mp hs)]
    by_cases hs : (s.window w).state = .frozen
    · rw [expireDwell_of_frozen (by rw [unpinned_self]; exact hs)]
      exact (State.window_modWindow _ _ _ _).trans ((if_neg hx).trans (unpinned_of_ne _ hx))
    · exact (expireDwell_advanced h hcar (u := s.tallySkip) (f := unpinned) rfl hw rfl hs).other hx |>.trans
        (hmod s.tallySkip rfl _)

theorem programLength_pos {s : State} {w q : Nat} (h : (s.stepAt w 0).page = some q) :
    0 < s.programLength w := by
  rw [State.programLength, stepsFrom, if_pos (by rw [h]; rfl)]
  exact Nat.succ_pos _

theorem takeRun_of_idle {s : State} {w : Nat} (n : Station) (hh : 0 < (s.window w).height)
    (h : (s.window w).carousel ≠ .stopped ∨ s.programLength w = 0) : takeRun n w s = s := by
  unfold takeRun
  rw [windowExists_of_pos hh]
  obtain h | h := h <;> simp [h]

theorem takeRun_of_stopped {s : State} {w : Nat} (n : Station) (hh : 0 < (s.window w).height)
    (h : (s.window w).carousel = .stopped) (hn : 0 < s.programLength w) :
    takeRun n w s = selectStep w 0 (s.unpinned w) := by
  simp only [takeRun, windowExists_of_pos hh, h, hn.ne', Bool.not_true, Bool.false_eq_true, if_false,
    if_true]
  rfl

/-- A selection from step 0 whose page no other window shows takes step 0, with no skip. -/
theorem selected_first {s t : State} {w q : Nat} (h : s.selected t w 0)
    (hq : (s.stepAt w 0).page = some q) (hfree : ∀ x, x ≠ w → ¬ s.shows x q) :
    (t.window w).carousel = (s.window w).carousel ∧ (t.window w).page = some q ∧
      (t.window w).step = 0 ∧ (t.window w).dwell = 16 * (s.stepAt w 0).dwell ∧
      (t.window w).advanceDue = false ∧
      ((s.window w).page ≠ some q → s.composeBegun t w q) ∧ t.sts = s.sts := by
  have hn := programLength_pos hq
  have hfirst : (if 0 < s.programLength w then 0 else 0) = 0 := ite_self 0
  obtain ⟨hchosen, -, -, -, -, -, -, hframe⟩ := h 0 hfirst.symm
  have hzero : (0 + 0) % s.programLength w = 0 := Nat.zero_mod _
  have htaken := hchosen 0 q hn (fun m hm => absurd hm (Nat.not_lt_zero m))
  rw [hzero] at htaken
  obtain ⟨hpage, hstep, hdwell, hcar, hadv, -, -, hbegun, hskips⟩ := htaken hq hfree
  refine ⟨hcar, hpage, hstep, hdwell, hadv, hbegun, ?_⟩
  have hsame : t.sts.tallies.skips = s.sts.tallies.skips := by
    refine BitVec.eq_of_toNat_eq ?_
    have := s.sts.tallies.skips.isLt
    omega
  rw [hframe, hsame]

/-- Settles O35: the way a RELEASE goes on is read off the step, the dwell left and the windows that
show the step's page; RUN is a selection from step 0. -/
theorem carouselStartsAndResumes : Obligations.CarouselStartsAndResumes := by
  refine ⟨?release, ?run⟩
  case release =>
    rintro rx window _ _ s hh ha hsound rfl hle rfl
    have hexec := exec_onWindow_of_le (i := .release rx window) (act := takeRelease) (fun _ => rfl) hh ha hle
    have hw := Nat.lt_succ_of_le hle
    have harr : (s.arrived rx).windowsSound := State.windowsSound_congr rfl hsound
    refine ⟨_, _, hexec, rfl, takeRelease_of_ne (s := s.arrived rx), fun hcar =>
      ⟨fun hn => ?_, fun q hstep hdwell hq hfree => ?_, fun hn hpast => ?_,
        fun q x hstep hdwell hq hx hs => ?_⟩,
      fun x hx => takeRelease_other harr hw hx⟩
    · rw [release_no_steps (s := s.arrived rx) hcar hn]
      exact ⟨State.window_modWindow_self _ _ _, rfl⟩
    · have heq := release_free harr hw hcar hstep hdwell hq hfree
      have hh := height_ne_of_pinned harr hcar
      have hself := unpinned_self (s.arrived rx) window.toNat
      by_cases hp : (s.window window.toNat).page = some q
      · rw [heq.trans (if_pos hp), hself]
        exact ⟨rfl, hp, rfl, rfl, fun _ => ⟨rfl, rfl⟩, fun hne => absurd hp hne, rfl⟩
      · have hagrees := (unpinned_sound harr hw hh).1.agrees window.toNat
        have huh : (((s.arrived rx).unpinned window.toNat).window window.toNat).height ≠ 0 := by
          rw [hself]
          exact hh
        have hv := (beginCompose_window hagrees huh q window.toNat).trans (if_pos rfl)
        rw [hself] at hv
        rw [heq.trans (if_neg hp), hv]
        refine ⟨rfl, rfl, rfl, rfl, fun h => absurd h hp, fun _ => ?_, beginCompose_frame ..⟩
        exact State.composeBegun_congr (u := (s.arrived rx).unpinned window.toNat) rfl rfl rfl
          (by rw [hself]; rfl) (by rw [hself]; rfl) (beginCompose_begun hagrees huh q)
    · rw [release_past (s := s.arrived rx) hcar hn hpast]
      refine ⟨fun hs => ?_, fun hs => expireDwell_advanced harr hcar rfl hw rfl hs⟩
      rw [expireDwell_of_frozen (by rw [State.window_modWindow_self]; exact hs),
        State.modWindow_modWindow]
      exact ⟨State.window_modWindow_self _ _ _, rfl⟩
    · rw [release_shown harr hw hcar hstep hdwell hq hx hs]
      refine ⟨fun hs => ?_, fun hs =>
        expireDwell_advanced (u := (s.arrived rx).tallySkip) harr hcar rfl hw rfl hs⟩
      rw [expireDwell_of_frozen (by rw [unpinned_self]; exact hs)]
      refine ⟨?_, rfl, ?_⟩
      · rw [State.window_modWindow_self, unpinned_self]
        rfl
      · exact (bumpTally_toNat _).trans (by rw [State.arrived_sts])
  case run =>
    rintro rx window _ _ s hh ha hsound rfl hle rfl hheight
    have hexec := exec_onWindow_of_le (i := .run rx window) (act := takeRun rx.origin) (fun _ => rfl) hh ha hle
    have hw := Nat.lt_succ_of_le hle
    have harr : (s.arrived rx).windowsSound := State.windowsSound_congr rfl hsound
    have hready := (unpinned_sound harr hw hheight.ne').readyAt window.toNat
    have hselected (hcar : (s.window window.toNat).carousel = .stopped)
        (hn : 0 < s.programLength window.toNat) :
        ((s.arrived rx).unpinned window.toNat).selected
          (takeRun rx.origin window.toNat (s.arrived rx)) window.toNat 0 := by
      rw [takeRun_of_stopped (s := s.arrived rx) _ hheight hcar hn]
      refine selectStep_selected 0 hready ?_ ?_
      · rw [unpinned_self]
        exact hheight.ne'
      · rwa [unpinned_programLength]
    refine ⟨_, _, hexec, rfl, takeRun_of_idle (s := s.arrived rx) _ hheight, hselected,
      fun q hcar hq hfree => ?_, fun x hx => ?_⟩
    · obtain ⟨hrun, hpage, hstep, hdwell, hadv, hbegun, hsts⟩ :=
        selected_first (hselected hcar (programLength_pos hq)) hq
          fun x hx hs => hfree x hx ((shows_modWindow _ hx q).mp hs)
      rw [unpinned_self] at hrun hbegun
      exact ⟨hrun, hpage, hstep, hdwell, hadv, fun hp =>
        State.composeBegun_congr (u := (s.arrived rx).unpinned window.toNat) rfl rfl rfl
          (by rw [unpinned_self]; rfl) (by rw [unpinned_self]; rfl) (hbegun hp), hsts⟩
    · by_cases hidle : (s.window window.toNat).carousel ≠ .stopped ∨ s.programLength window.toNat = 0
      · rw [takeRun_of_idle (s := s.arrived rx) _ hheight hidle]
        rfl
      · obtain ⟨hcar, hn⟩ := not_or.mp hidle
        obtain ⟨-, -, hother, -⟩ := hselected (not_not.mp hcar) (Nat.pos_of_ne_zero hn) _ rfl
        exact (hother x hx).trans (unpinned_of_ne _ hx)

/-! ## WINDOW records (R104, R105) -/

theorem closeLast_nothing {l : List Burst} (h : ∀ b ∈ l, b.after = .nothing) :
    closeLast .nothing l = l := by
  induction l with
  | nil => rfl
  | cons b l ih =>
    cases l with
    | nil =>
      have hb := h b List.mem_cons_self
      simp only [closeLast, ← hb]
    | cons c l => exact congrArg (b :: ·) (ih fun d hd => h d (List.mem_cons_of_mem _ hd))

/-- Bursts that nothing follows are listed as far as there is room. -/
theorem handOver_nothing {l : List Burst} (h : ∀ b ∈ l, b.after = .nothing) (s : State) :
    handOver l .nothing s = listBursts (l.take (1024 - s.cpl.bursts.length)) s := by
  obtain ⟨-, hle, hhand⟩ | ⟨rfl, hhand⟩ | ⟨-, -, hhand⟩ := handOver_cases l .nothing s <;> rw [hhand]
  · rw [closeLast_nothing h, List.take_of_length_le (by unfold burstRoom at hle; omega)]
  · simp [runAfter, listBursts, State.modCpl]
  · rfl

theorem endPage_of_none {s : State} {w : Nat} (h : (s.window w).page = none) : endPage w s = s := by
  simp only [endPage, h]

theorem oldRows_of_zero {s : State} {v : Window} (h : v.height = 0) : oldRows s v = [] := by
  rw [oldRows, h]
  rfl

theorem endWindow_of_zero {s : State} {w : Nat} (h : (s.window w).height = 0) : endWindow w s = s :=
  if_pos h

theorem endWindow_of_pos {s : State} {w : Nat} (ha : (s.window w).agrees)
    (h : (s.window w).height ≠ 0) :
    endWindow w s =
      listBursts ((oldRows s (s.window w)).take (1024 - (s.burstsLeft w).length))
        ((endPage w s).modWindow w ended) := by
  have hend : endWindow w s =
      handOver (oldRows s (s.window w)) .nothing ((endPage w s).modWindow w ended) := if_neg h
  have hbursts : ((endPage w s).modWindow w ended).cpl.bursts = s.burstsLeft w := endPage_bursts ha
  rw [hend, handOver_nothing fun b hb => oldRows_after hb, hbursts]

section
variable {s : State} {w : Nat} (ha : (s.window w).agrees)
include ha

theorem endWindow_bursts :
    (endWindow w s).cpl.bursts =
      s.burstsLeft w ++ (oldRows s (s.window w)).take (1024 - (s.burstsLeft w).length) := by
  by_cases h : (s.window w).height = 0
  · obtain ⟨hs, -⟩ := ha.2.2.2.2.2 h
    rw [endWindow_of_zero h, oldRows_of_zero h, State.burstsLeft, hs, if_neg WinState.noConfusion,
      List.take_nil, List.append_nil]
  · rw [endWindow_of_pos ha h, ← endPage_bursts ha]
    rfl

theorem endWindow_pnt : (endWindow w s).pnt = (endPage w s).pnt := by
  by_cases h : (s.window w).height = 0
  · obtain ⟨hs, -⟩ := ha.2.2.2.2.2 h
    rw [endWindow_of_zero h, endPage_of_none (ha.1.mpr hs)]
  · rw [endWindow_of_pos ha h]
    rfl

theorem endWindow_cpl :
    (endWindow w s).cpl = { (endPage w s).cpl with bursts := (endWindow w s).cpl.bursts } := by
  by_cases h : (s.window w).height = 0
  · obtain ⟨hs, -⟩ := ha.2.2.2.2.2 h
    rw [endWindow_of_zero h, endPage_of_none (ha.1.mpr hs)]
  · rw [endWindow_of_pos ha h]
    rfl

theorem endWindow_window (x : Nat) :
    (endWindow w s).window x =
      if x = w then
        if (s.window w).height = 0 then s.window w else ended (emptied (s.window w))
      else s.window x := by
  by_cases h : (s.window w).height = 0
  · rw [endWindow_of_zero h, if_pos h]
    split
    · next hx => rw [hx]
    · rfl
  · rw [endWindow_of_pos ha h, if_neg h]
    refine (State.window_modWindow _ _ _ _).trans ?_
    rw [endPage_window ha, if_pos rfl, endPage_window ha]
    split <;> rfl

/-- The window that a WINDOW record replaces has no page, no carousel and no override left. -/
theorem endWindow_self :
    ((endWindow w s).window w).page = none ∧ ((endWindow w s).window w).height = 0 ∧
      ((endWindow w s).window w).carousel = .stopped ∧
      (0 < (s.window w).height → ((endWindow w s).window w).override = .none) ∧
      ((endWindow w s).window w).agrees := by
  rw [endWindow_window ha, if_pos rfl]
  split
  · next h =>
    obtain ⟨hs, hcar⟩ := ha.2.2.2.2.2 h
    exact ⟨ha.1.mpr hs, h, hcar, fun h0 => absurd h h0.ne', ha⟩
  · exact ⟨rfl, rfl, rfl, fun _ => rfl, agrees_ended (agrees_emptied ha) rfl⟩

theorem endWindow_left : s.pageLeft (endWindow w s) w :=
  State.pageLeft_congr (by rw [endWindow_pnt ha]) (by rw [endWindow_cpl ha]) (endPage_left ha)

end

/-- A compose in a window without a page changes of the Painter its queue and of the port its list. -/
theorem beginCompose_of_none {s : State} {w : Nat} (h : (s.window w).page = none) (p : Nat) :
    (beginCompose w p s).pnt = { s.pnt with queue := (beginCompose w p s).pnt.queue } ∧
      (beginCompose w p s).cpl = { s.cpl with bursts := (beginCompose w p s).cpl.bursts } := by
  have hend : (s.composeOpened w p).pnt = s.pnt ∧ (s.composeOpened w p).cpl = s.cpl := by
    rw [State.composeOpened, endPage_of_none h]
    exact ⟨rfl, rfl⟩
  obtain ⟨hpnt, hcpl⟩ := hend
  rw [← hpnt, ← hcpl, beginCompose_eq]
  exact ⟨handOver_pnt .., handOver_cpl ..⟩

/-- The state with the band of a WINDOW record in place. -/
def State.banded (s : State) (w : Nat) (r : WindowRecord) : State :=
  s.modWindow w fun v =>
    { v with top := r.top.toNat, height := r.height.toNat, background := r.background }

theorem banded_window (s : State) (w : Nat) (r : WindowRecord) (x : Nat) :
    (s.banded w r).window x =
      if x = w then
        { s.window w with top := r.top.toNat, height := r.height.toNat, background := r.background }
      else s.window x := State.window_modWindow ..

theorem readPageOrNone_of_le {b : Byte} (h : b.toNat ≤ 31) : readPageOrNone b = some (some b.toNat) :=
  if_pos (Nat.lt_succ_of_le h)

theorem readBand_of_free {s : State} {w : Nat} {r : WindowRecord}
    (hrows : r.top.toNat + r.height.toNat ≤ freeRows s.straps)
    (hfree : ∀ x v, (x, v) ∈ s.win → x ≠ w →
      r.top.toNat + r.height.toNat ≤ v.top ∨ v.top + v.height ≤ r.top.toNat) :
    readBand s w r = readPageOrNone r.page := by
  have hband : bandTaken s w r.top.toNat r.height.toNat = false := by
    rw [Bool.eq_false_iff, ne_eq, bandTaken, List.any_eq_true]
    rintro ⟨⟨x, v⟩, hmem, hshare⟩
    simp only [sharesRow, Bool.and_eq_true, decide_eq_true_eq] at hshare
    obtain ⟨hx, htop, hbottom⟩ := hshare
    have := hfree x v hmem hx
    omega
  rw [readBand, if_neg (not_lt.mpr hrows), hband, if_neg Bool.false_ne_true]

theorem openWindow_of_none (w : Nat) (r : WindowRecord) (s : State) :
    openWindow w r none s = s.banded w r := rfl

theorem openWindow_of_some {s : State} {w p : Nat} {r : WindowRecord}
    (hr : Tab.rising (s.banded w r).win = true) (hp : (s.window w).page = none) :
    ((∃ x, x ≠ w ∧ s.shows x p) → openWindow w r (some p) s = s.banded w r) ∧
      ((∀ x, x ≠ w → ¬ s.shows x p) →
        openWindow w r (some p) s = beginCompose w p (s.banded w r)) := by
  have hopen : openWindow w r (some p) s =
      if ((s.banded w r).showing p).isSome then s.banded w r else beginCompose w p (s.banded w r) := rfl
  have hshows (x : Nat) : (s.banded w r).shows x p ↔ x ≠ w ∧ s.shows x p := by
    by_cases hx : x = w
    · subst hx
      simp [State.shows, banded_window, hp]
    · exact (shows_modWindow _ hx p).trans (and_iff_right hx).symm
  rw [hopen]
  refine ⟨fun ⟨x, hx, hs⟩ => if_pos ?_, fun hfree => if_neg ?_⟩
  · rw [Option.isSome_iff_ne_none, ne_eq, State.showing_eq_none_iff hr]
    exact fun hno => hno x ((hshows x).mpr ⟨hx, hs⟩)
  · rw [Option.not_isSome_iff_eq_none, State.showing_eq_none_iff hr]
    exact fun x hs => hfree x ((hshows x).mp hs).1 ((hshows x).mp hs).2

theorem takeWindow_of_zero {s : State} {r : WindowRecord} (n : Station) (hw : r.window.toNat ≤ 7)
    (hh : r.height = 0) : takeWindow n r s = endWindow r.window.toNat s := by
  simp only [takeWindow, readWindow_of_le hw, hh, if_true]

theorem takeWindow_of_band {s : State} {r : WindowRecord} {page : Option Nat} (n : Station)
    (hw : r.window.toNat ≤ 7) (hh : r.height ≠ 0)
    (hband : readBand s r.window.toNat r = some page) :
    takeWindow n r s = openWindow r.window.toNat r page (endWindow r.window.toNat s) := by
  simp only [takeWindow, readWindow_of_le hw, hh, if_false, hband]

/-- A state in which the old window of a record has ended and nothing more has been drawn. -/
structure State.bandOf (s t : State) (w : Nat) (before : List Burst) : Prop where
  left : s.pageLeft t w
  page : (t.window w).page = none
  agrees : (t.window w).agrees
  carousel : (t.window w).carousel = .stopped
  override : 0 < (s.window w).height → (t.window w).override = .none
  bursts : t.cpl.bursts = before
  queue : t.pnt.queue = s.pnt.queue
  other : ∀ x, x ≠ w → t.window x = s.window x
  frame : t = { s with
    pnt := t.pnt, win := t.win
    cpl := { s.cpl with bursts := t.cpl.bursts, granted := t.cpl.granted } }

theorem endWindow_bandOf {s : State} {w : Nat} (ha : (s.window w).agrees) :
    s.bandOf (endWindow w s) w
      (s.burstsLeft w ++ (oldRows s (s.window w)).take (1024 - (s.burstsLeft w).length)) := by
  obtain ⟨hpage, -, hcar, hover, hagrees⟩ := endWindow_self ha
  refine ⟨endWindow_left ha, hpage, hagrees, hcar, hover, endWindow_bursts ha, ?_,
    fun x hx => (endWindow_window ha x).trans (if_neg hx), ?_⟩
  · rw [endWindow_pnt ha]
    exact endPage_queue w s
  · refine (endWindow_frame w s).trans ?_
    rw [endWindow_cpl ha, endPage_cpl_frame]

theorem State.bandOf.banded {s u : State} {w : Nat} {before : List Burst} (h : s.bandOf u w before)
    (r : WindowRecord) (hh : r.height.toNat ≠ 0) : s.bandOf (u.banded w r) w before := by
  have hself := (banded_window u w r w).trans (if_pos rfl)
  obtain ⟨hleft, hpage, hagrees, hcar, hover, hbursts, hqueue, hother, hframe⟩ := h
  refine ⟨State.pageLeft_congr rfl rfl hleft, by rw [hself]; exact hpage, ?_, by rw [hself]; exact hcar,
    by rw [hself]; exact hover, hbursts, hqueue,
    fun x hx => ((banded_window u w r x).trans (if_neg hx)).trans (hother x hx), ?_⟩
  · rw [hself]
    exact agrees_band hagrees _ _ _ hh
  · rw [hframe]
    rfl

/-- Settles O28: the old window's end leaves window w without a page, so that the compose of the new one
takes nothing more from the Painter and the port. -/
theorem windowRecordOpens : Obligations.WindowRecordOpens := by
  rintro rx rec s _ before hh ha hsound rfl hle hband hbefore
  have hexec := exec_layout (i := .window rx rec) (fun _ => rfl) hh ha
  generalize hs' : (s.arrived rx).claimed rx.origin = s' at hexec ⊢
  have hsound' : s'.windowsSound := by rw [← hs']; exact State.windowsSound_congr rfl hsound
  have hend := endWindow_bandOf (hsound'.1.agrees rec.window.toNat)
  have hbefore' : s'.burstsLeft rec.window.toNat ++ (oldRows s' (s'.window rec.window.toNat)).take
      (1024 - (s'.burstsLeft rec.window.toNat).length) = before := by
    rw [hbefore, ← hs']
    rfl
  rw [hbefore'] at hend
  have hwindow (x : Nat) : s.window x = s'.window x := by rw [← hs']; rfl
  have hshows (x p : Nat) : s.shows x p ↔ s'.shows x p := by rw [← hs']; rfl
  have hleft (t : State) : s.pageLeft t rec.window.toNat ↔ s'.pageLeft t rec.window.toNat := by
    rw [← hs']; rfl
  have hcpl : s.cpl = s'.cpl := by rw [← hs']; rfl
  have hqueue : s.pnt.queue = s'.pnt.queue := by rw [← hs']; rfl
  refine ⟨_, _, hexec, rfl, ?_⟩
  simp only [hwindow, hshows, hleft, hcpl, hqueue]
  generalize hu : endWindow rec.window.toNat s' = u at hend
  by_cases hzero : rec.height = 0
  · rw [takeWindow_of_zero _ hle hzero, hu]
    obtain ⟨-, hheight, -⟩ := endWindow_self (hsound'.1.agrees rec.window.toNat)
    rw [hu] at hheight
    obtain ⟨hstate, -, -, -, hadv⟩ := hend.agrees.of_page_none hend.page
    exact ⟨hend.left, by rw [hheight, hzero]; rfl, hend.carousel, hadv, fun h => absurd hzero h,
      hend.override, fun _ => ⟨hstate, hend.page, hend.bursts, hend.queue⟩, fun h => absurd hzero h,
      hend.other, hend.frame⟩
  · have hnat : rec.height.toNat ≠ 0 := by
      intro h0
      exact hzero (BitVec.eq_of_toNat_eq h0)
    obtain ⟨hrows, hpage, hfree⟩ := hband hzero
    have hread : readBand s' rec.window.toNat rec = readPageOrNone rec.page := by
      rw [← hs']
      exact readBand_of_free (s := (s.arrived rx).claimed rx.origin) hrows hfree
    have hbanded := hend.banded rec hnat
    have hself := (banded_window u rec.window.toNat rec _).trans (if_pos rfl)
    have hrising : Tab.rising (u.banded rec.window.toNat rec).win = true := by
      rw [← hu]
      exact ((Tab.wf_iff _ _).mp (Tab.wf_put _ _ _
        (endWindow_keeps (Nat.lt_succ_of_le hle) hsound').1.1)).1
    have hshown (x p : Nat) (hx : x ≠ rec.window.toNat) : u.shows x p ↔ s'.shows x p := by
      rw [State.shows, hend.other x hx]
      rfl
    by_cases hopen : rec.page.toNat ≤ 31 ∧ ∀ x, x ≠ rec.window.toNat → ¬ s'.shows x rec.page.toNat
    · obtain ⟨hlepage, hno⟩ := hopen
      rw [takeWindow_of_band _ hle hzero (hread.trans (readPageOrNone_of_le hlepage)), hu,
        (openWindow_of_some hrising hend.page).2 fun x hx hs => hno x hx ((hshown x _ hx).mp hs)]
      have huh : ((u.banded rec.window.toNat rec).window rec.window.toNat).height ≠ 0 := by
        rw [hself]
        exact hnat
      have hwin := beginCompose_window hbanded.agrees huh rec.page.toNat
      have hwself := (hwin rec.window.toNat).trans (if_pos rfl)
      obtain ⟨-, hhanded, -⟩ := beginCompose_begun hbanded.agrees huh rec.page.toNat
      obtain ⟨hpnt, hcomp⟩ := beginCompose_of_none hbanded.page rec.page.toNat
      obtain ⟨hstate, -⟩ := hbanded.agrees.of_page_none hbanded.page
      rw [State.burstsLeft, hstate, if_neg WinState.noConfusion, hbanded.bursts, hbanded.queue] at hhanded
      rw [hself] at hwself
      rw [hwself]
      refine ⟨State.pageLeft_congr hpnt (by rw [hcomp]) hbanded.left, rfl, hend.carousel, rfl,
        fun _ => ⟨rfl, rfl⟩, hend.override, fun hclosed => ?_, fun _ _ _ => hhanded,
        fun x hx => (hwin x).trans ((if_neg hx).trans (hbanded.other x hx)), ?_⟩
      · obtain h | h | ⟨x, hx, hs⟩ := hclosed
        · exact absurd h hzero
        · rw [h] at hlepage
          exact absurd hlepage (by decide)
        · exact absurd hs (hno x hx)
      · refine (beginCompose_frame _ _ _).trans ?_
        rw [hcomp, hbanded.frame]
    · have htaken : takeWindow rx.origin rec s' = u.banded rec.window.toNat rec := by
        obtain hlepage | h255 := hpage
        · obtain ⟨x, hx⟩ := not_forall.mp (not_and.mp hopen hlepage)
          obtain ⟨hx, hs⟩ := Classical.not_imp.mp hx
          rw [takeWindow_of_band _ hle hzero (hread.trans (readPageOrNone_of_le hlepage)), hu,
            (openWindow_of_some hrising hend.page).1 ⟨x, hx, (hshown x _ hx).mpr (not_not.mp hs)⟩]
        · rw [takeWindow_of_band _ hle hzero (hread.trans (by rw [h255]; rfl)), hu, openWindow_of_none]
      rw [htaken]
      obtain ⟨hstate, -, -, -, hadv⟩ := hbanded.agrees.of_page_none hbanded.page
      exact ⟨hbanded.left, by rw [hself], hbanded.carousel, hadv, fun _ => by rw [hself]; exact ⟨rfl, rfl⟩,
        hbanded.override, fun _ => ⟨hstate, hbanded.page, hbanded.bursts, hbanded.queue⟩,
        fun _ hlepage hno => absurd ⟨hlepage, hno⟩ hopen, hbanded.other, hbanded.frame⟩

end Sys2Proof.Machine

/-! PROOFS. The 32 bytes of a parcel decode to the command they stand for (spec/01 sections 1.8 and
1.10). -/

namespace Sys2Proof

open Machine

/-! ## Bits put together and taken apart -/

theorem extractLsb'_append_low {v w : Nat} (x : BitVec v) (y : BitVec w) :
    (x ++ y).extractLsb' 0 w = y := by
  refine BitVec.eq_of_getLsbD_eq fun i hi => ?_
  simp [BitVec.getLsbD_append, hi]

/-- What lies above the low part of two parts put together is read off the high part. -/
theorem extractLsb'_append_above {v w : Nat} (x : BitVec v) (y : BitVec w) (k n : Nat) :
    (x ++ y).extractLsb' (w + k) n = x.extractLsb' k n := by
  refine BitVec.eq_of_getLsbD_eq fun i hi => ?_
  simp [BitVec.getLsbD_append, hi, Nat.add_assoc]

theorem extractLsb'_append_high {v w : Nat} (x : BitVec v) (y : BitVec w) :
    (x ++ y).extractLsb' w v = x := (extractLsb'_append_above x y 0 v).trans BitVec.extractLsb'_eq_self

theorem extractLsb'_setWidth {v w : Nat} (x : BitVec v) (h : v ≤ w) :
    (x.setWidth w).extractLsb' 0 v = x := by
  refine BitVec.eq_of_getLsbD_eq fun i hi => ?_
  simp [hi, lt_of_lt_of_le hi h]

theorem getLsbD_append_ofBool {v : Nat} (x : BitVec v) (b : Bool) :
    (x ++ BitVec.ofBool b).getLsbD 0 = b := by
  rw [BitVec.getLsbD_append]
  simp

/-- A bit above the low part of two parts put together is one of the high part. -/
theorem getLsbD_append_above {v w : Nat} (x : BitVec v) (y : BitVec w) (k : Nat) :
    (x ++ y).getLsbD (w + k) = x.getLsbD k := by
  rw [BitVec.getLsbD_append]
  simp

theorem hiNibble_append (x y : Nibble) : hiNibble (x ++ y) = x := extractLsb'_append_high x y

theorem loNibble_append (x y : Nibble) : loNibble (x ++ y) = y := extractLsb'_append_low x y

theorem hiByte_append_loByte (x : BitVec 16) : hiByte x ++ loByte x = x :=
  BitVec.extractLsb'_append_extractLsb'

theorem keyBytes_append (k : Key) :
    k.extractLsb' 16 8 ++ k.extractLsb' 8 8 ++ k.extractLsb' 0 8 = k := by
  have hhigh : k.extractLsb' 16 8 ++ k.extractLsb' 8 8 = k.extractLsb' 8 16 :=
    BitVec.extractLsb'_append_extractLsb'_eq_extractLsb' rfl
  rw [hhigh]
  exact BitVec.extractLsb'_append_extractLsb'

theorem wordHalves_append (x : BitVec 32) : x.extractLsb' 16 16 ++ x.extractLsb' 0 16 = x :=
  BitVec.extractLsb'_append_extractLsb'

theorem ofBool_getLsbD (b : Bool) : (BitVec.ofBool b).getLsbD 0 = b := by
  cases b <;> rfl

theorem flagByte_getLsbD (b : Bool) : (flagByte b).getLsbD 0 = b := by
  cases b <;> rfl

theorem flagByte_extract (b : Bool) : (flagByte b).extractLsb' 0 1 = BitVec.ofBool b := by
  cases b <;> rfl

theorem topBit_append (x : BitVec 9) : x.extractLsb' 8 1 ++ x.setWidth 8 = x := by
  rw [BitVec.setWidth_eq_extractLsb' (by decide)]
  exact BitVec.extractLsb'_append_extractLsb'

theorem ofBool_getLsbD_eight (g : Glyph) : BitVec.ofBool (g.getLsbD 8) = g.extractLsb' 8 1 := by
  refine BitVec.eq_of_getLsbD_eq fun i hi => ?_
  obtain rfl : i = 0 := by omega
  simp

/-! ## Runs of bytes -/

theorem length_bodyOf {bytes : List Byte} {n : Nat} (h : bytes.length = n) (hn : n ≤ 28) :
    (bodyOf bytes).length = 28 := by
  rw [bodyOf, List.length_append, List.length_replicate]
  omega

theorem runAt_append {before run after : List Byte} {k n : Nat} (hk : before.length = k)
    (hn : run.length = n) : runAt (before ++ run ++ after) k n = run := by
  subst hk hn
  refine List.ext_getElem (by simp [runAt]) fun i h1 h2 => ?_
  have hget : (before ++ (run ++ after))[before.length + i]? = some run[i] := by
    rw [List.getElem?_append_right (Nat.le_add_right _ _), Nat.add_sub_cancel_left,
      List.getElem?_append_left h2, List.getElem?_eq_getElem h2]
  simp [runAt, byteAt, List.getD_eq_getElem?_getD, hget]

/-- A byte within a slice is the slice's. -/
theorem byteAt_of_slice {bytes l : List Byte} {k n j : Nat} (h : (bytes.drop k).take n = l) (hj : j < n) :
    byteAt bytes (k + j) = byteAt l j := by
  subst h
  simp [byteAt, List.getD_eq_getElem?_getD, hj]

/-! ## The frame (R18, R19) -/

theorem decodeParcel_bytes {p : Parcel} (slot : Slot) (hb : p.body.length = 28) (ho : p.origin ≠ 0) :
    decodeParcel slot p.bytes =
      readKind { slot := slot, origin := p.origin, target := p.target } p.kind p.sub p.body := by
  have hlen : p.head.length = 30 := by simp [Parcel.head, hb]
  have htake : p.bytes.take 30 = p.head := by
    rw [Parcel.bytes, withCrc, List.take_left' hlen]
  have hcrc : wordAt p.bytes 30 = crc16 p.head := by
    have hhi : byteAt p.bytes 30 = hiByte (crc16 p.head) := by
      simp [byteAt, Parcel.bytes, withCrc, List.getD_eq_getElem?_getD, hlen]
    have hlo : byteAt p.bytes 31 = loByte (crc16 p.head) := by
      simp [byteAt, Parcel.bytes, withCrc, List.getD_eq_getElem?_getD, hlen]
    rw [wordAt, hhi, hlo, hiByte_append_loByte]
  have hbody : (p.bytes.drop 2).take 28 = p.body := by
    have hdrop : p.bytes.drop 2 = p.body ++ [hiByte (crc16 p.head), loByte (crc16 p.head)] := rfl
    rw [hdrop, List.take_left' hb]
  have horigin : loNibble (byteAt p.bytes 0) = p.origin := loNibble_append _ _
  have hkind : hiNibble (byteAt p.bytes 0) = p.kind := hiNibble_append _ _
  have htarget : hiNibble (byteAt p.bytes 1) = p.target := hiNibble_append _ _
  have hsub : loNibble (byteAt p.bytes 1) = p.sub := loNibble_append _ _
  have h32 : p.bytes.length = 32 := by simp [Parcel.bytes, withCrc, hlen]
  simp only [decodeParcel, h32, htake, hcrc, horigin, hkind, htarget, hsub, hbody, ho, ne_eq,
    not_true_eq_false, if_false]

/-! ## The bodies (R22) -/

theorem readPresence_bytes (b : PresenceBody) : readPresence (bodyOf (presenceBytes b)) = b := by
  show PresenceBody.mk b.kind b.role b.originHeld ((flagByte b.lapListen).getLsbD 0) = b
  rw [flagByte_getLsbD]

theorem keyAt_bytes (k : Key) : keyAt (bodyOf (keyBytes k)) 0 = k := keyBytes_append k

/-- An item entry reads back wherever it stands. -/
theorem itemAt_bytes {bytes : List Byte} {k : Nat} {i : TickItem}
    (h : (bytes.drop k).take 5 = itemBytes i) : itemAt bytes k = i := by
  have hat (j : Nat) (hj : j < 5) := byteAt_of_slice h hj
  have h0 : byteAt bytes k = i.code ++ (0 : BitVec 1) ++ i.scale := hat 0 (by decide)
  have h1 : wordAt bytes (k + 1) = i.value.extractLsb' 16 16 := by
    rw [wordAt, Nat.add_assoc, hat 1 (by decide), hat 2 (by decide)]
    exact hiByte_append_loByte _
  have h3 : wordAt bytes (k + 3) = i.value.extractLsb' 0 16 := by
    rw [wordAt, Nat.add_assoc, hat 3 (by decide), hat 4 (by decide)]
    exact hiByte_append_loByte _
  have hcode : hiNibble (i.code ++ (0 : BitVec 1) ++ i.scale) = i.code := by
    refine (extractLsb'_append_above _ i.scale 1 4).trans ?_
    exact extractLsb'_append_high i.code _
  rw [itemAt, h0, h1, h3, hcode, extractLsb'_append_low, wordHalves_append]

theorem readTick_bytes {b : TickBody} (h : b.items.length = 4) :
    readTick b.sub (bodyOf (tickBytes b)) = b := by
  obtain ⟨sub, key, seq, count, items⟩ := b
  obtain _ | ⟨i1, _ | ⟨i2, _ | ⟨i3, _ | ⟨i4, _ | ⟨i5, l⟩⟩⟩⟩⟩ := items
  case cons.cons.cons.cons.nil =>
    rw [readTick, itemAt_bytes (i := i1) rfl, itemAt_bytes (i := i2) rfl, itemAt_bytes (i := i3) rfl,
      itemAt_bytes (i := i4) rfl]
    show TickBody.mk sub (key.extractLsb' 16 8 ++ key.extractLsb' 8 8 ++ key.extractLsb' 0 8)
      (hiByte seq ++ loByte seq) count [i1, i2, i3, i4] = _
    rw [keyBytes_append, hiByte_append_loByte]
  all_goals simp at h

theorem readHandoff_bytes (b : HandoffBody) : readHandoff (bodyOf (handoffBytes b)) = b := by
  show HandoffBody.mk b.tag ((flagByte (b.glyph.getLsbD 8)).extractLsb' 0 1 ++ b.glyph.setWidth 8)
    (hiNibble (b.fg ++ b.bg)) (loNibble (b.fg ++ b.bg)) ((flagByte b.blink).getLsbD 0) = b
  rw [flagByte_getLsbD, hiNibble_append, loNibble_append, flagByte_extract, ofBool_getLsbD_eight,
    topBit_append]

theorem readCrawlText_bytes {b : CrawlTextBody} (h : b.chars.length = 24) :
    readCrawlText (bodyOf (crawlTextBytes b)) = b := by
  show CrawlTextBody.mk b.count (hiNibble (b.fg ++ b.bg)) (loNibble (b.fg ++ b.bg))
    ((flagByte b.blink).getLsbD 0) (runAt ([b.count, b.fg ++ b.bg, flagByte b.blink] ++ b.chars ++ _) 3 24) = b
  rw [flagByte_getLsbD, hiNibble_append, loNibble_append, runAt_append (k := 3) rfl h]

theorem readWindowRecord_bytes (r : WindowRecord) :
    readWindowRecord (bodyOf (windowRecordBytes r)) = r := by
  show WindowRecord.mk r.window r.top r.height (loNibble ((0 : BitVec 4) ++ r.background)) r.page = r
  rw [loNibble_append]

theorem readPaletteRecord_bytes (r : PaletteRecord) :
    readPaletteRecord (bodyOf (paletteRecordBytes r)) = r := rfl

theorem readCondLabelRecord_bytes {r : CondLabelRecord} (h : r.chars.length = 6) :
    readCondLabelRecord (bodyOf (condLabelRecordBytes r)) = r := by
  show CondLabelRecord.mk r.code (runAt ([r.code] ++ r.chars ++ _) 1 6) = r
  rw [runAt_append (k := 1) rfl h]

theorem readCarouselRecord_bytes (r : CarouselRecord) :
    readCarouselRecord (bodyOf (carouselRecordBytes r)) = r := by
  show CarouselRecord.mk r.window r.step r.page
    ((hiByte (r.dwell.setWidth 16) ++ loByte (r.dwell.setWidth 16)).extractLsb' 0 12) = r
  rw [hiByte_append_loByte, extractLsb'_setWidth _ (by decide)]

theorem readCrawlProgRecord_bytes {r : CrawlProgRecord} (h : r.chars.length = 8) :
    readCrawlProgRecord (bodyOf (crawlProgRecordBytes r)) = r := by
  show CrawlProgRecord.mk r.entry ((flagByte r.keyPresent).getLsbD 0)
    (r.key.extractLsb' 16 8 ++ r.key.extractLsb' 8 8 ++ r.key.extractLsb' 0 8)
    (runAt (([r.entry, flagByte r.keyPresent] ++ keyBytes r.key) ++ r.chars ++ _) 5 8) = r
  rw [flagByte_getLsbD, keyBytes_append, runAt_append (k := 5) rfl h]

theorem readLabelRecord_bytes {r : LabelRecord} (h : r.chars.length = 20) :
    readLabelRecord (bodyOf (labelRecordBytes r)) = r := by
  show LabelRecord.mk (hiByte r.run ++ loByte r.run) ((r.page.setWidth 8).extractLsb' 0 5)
    ((r.row.setWidth 8).extractLsb' 0 6) r.column r.length
    ((r.charset ++ (0 : BitVec 3) ++ BitVec.ofBool r.blink).extractLsb' (1 + 3) 4)
    ((r.charset ++ (0 : BitVec 3) ++ BitVec.ofBool r.blink).getLsbD 0)
    (hiNibble (r.fg ++ r.bg)) (loNibble (r.fg ++ r.bg))
    (runAt ((wordBytes r.run ++ [r.page.setWidth 8, r.row.setWidth 8, r.column, r.length,
      r.charset ++ (0 : BitVec 3) ++ BitVec.ofBool r.blink, r.fg ++ r.bg]) ++ r.chars ++ _) 8 20) = r
  rw [hiByte_append_loByte, extractLsb'_setWidth _ (by decide), extractLsb'_setWidth _ (by decide),
    getLsbD_append_ofBool, extractLsb'_append_above, extractLsb'_append_high, hiNibble_append,
    loNibble_append, runAt_append (k := 8) rfl h]

theorem readPolicyRecord_bytes (r : PolicyRecord) :
    readPolicyRecord (bodyOf (policyRecordBytes r)) = r := by
  show PolicyRecord.mk r.policy r.mode (hiByte r.hold ++ loByte r.hold)
    (hiNibble (r.upFg ++ r.upBg)) (loNibble (r.upFg ++ r.upBg))
    (hiNibble (r.downFg ++ r.downBg)) (loNibble (r.downFg ++ r.downBg))
    (hiNibble (r.upStick ++ r.downStick)) (loNibble (r.upStick ++ r.downStick))
    (hiNibble (r.touchFg ++ r.touchBg)) (loNibble (r.touchFg ++ r.touchBg))
    (((0 : BitVec 6) ++ BitVec.ofBool r.touch ++ BitVec.ofBool r.blinkFlash).getLsbD (1 + 0))
    (((0 : BitVec 6) ++ BitVec.ofBool r.touch ++ BitVec.ofBool r.blinkFlash).getLsbD 0) = r
  simp only [hiByte_append_loByte, hiNibble_append, loNibble_append, getLsbD_append_above,
    getLsbD_append_ofBool]

theorem readGlobalRecord_bytes (r : GlobalRecord) :
    readGlobalRecord (bodyOf (globalRecordBytes r)) = r := by
  show GlobalRecord.mk (hiByte r.staleLimit ++ loByte r.staleLimit)
    (hiNibble (r.staleFg ++ r.gapFg)) (loNibble (r.staleFg ++ r.gapFg)) r.interval
    (hiNibble (r.crawlFg ++ r.crawlBg)) (loNibble (r.crawlFg ++ r.crawlBg)) r.blinkCode r.blinkDuty
    ((r.sync ++ r.clash ++ r.silent ++ r.orphan).extractLsb' (2 + (2 + 2)) 2)
    ((r.sync ++ r.clash ++ r.silent ++ r.orphan).extractLsb' (2 + 2) 2)
    ((r.sync ++ r.clash ++ r.silent ++ r.orphan).extractLsb' 2 2)
    ((r.sync ++ r.clash ++ r.silent ++ r.orphan).extractLsb' 0 2)
    ((r.drop ++ r.underrun ++ r.foreign ++ (0 : BitVec 2)).extractLsb' (2 + (2 + 2)) 2)
    ((r.drop ++ r.underrun ++ r.foreign ++ (0 : BitVec 2)).extractLsb' (2 + 2) 2)
    ((r.drop ++ r.underrun ++ r.foreign ++ (0 : BitVec 2)).extractLsb' 2 2) = r
  have hfirst (a b c d : BitVec 2) : (a ++ b ++ c ++ d).extractLsb' 6 2 = a := by
    rw [extractLsb'_append_above _ d 4, extractLsb'_append_above _ c 2, extractLsb'_append_high]
  have hsecond (a b c d : BitVec 2) : (a ++ b ++ c ++ d).extractLsb' 4 2 = b := by
    rw [extractLsb'_append_above _ d 2, extractLsb'_append_above _ c 0, extractLsb'_append_low]
  have hthird (a b c d : BitVec 2) : (a ++ b ++ c ++ d).extractLsb' 2 2 = c := by
    rw [extractLsb'_append_above _ d 0, extractLsb'_append_low]
  rw [hiByte_append_loByte, hiNibble_append, loNibble_append, hiNibble_append, loNibble_append, hfirst,
    hsecond, hthird, extractLsb'_append_low, hfirst, hsecond, hthird]

/-- The flag byte of a FIELD entry. -/
def flagsOf (right plus grouping : Bool) (subst : BitVec 2) (blink localMark : Bool) : Byte :=
  BitVec.ofBool right ++ BitVec.ofBool plus ++ BitVec.ofBool grouping ++ subst ++ (0 : BitVec 1)
    ++ BitVec.ofBool blink ++ BitVec.ofBool localMark

theorem flagsOf_bits (right plus grouping : Bool) (subst : BitVec 2) (blink localMark : Bool) {f : Byte}
    (hf : f = flagsOf right plus grouping subst blink localMark) :
    f.getLsbD 7 = right ∧ f.getLsbD 6 = plus ∧ f.getLsbD 5 = grouping ∧ f.extractLsb' 3 2 = subst ∧
      f.getLsbD 1 = blink ∧ f.getLsbD 0 = localMark := by
  subst hf
  unfold flagsOf
  refine ⟨?_, ?_, ?_, ?_, ?_, getLsbD_append_ofBool _ _⟩
  · rw [getLsbD_append_above _ _ 6, getLsbD_append_above _ _ 5, getLsbD_append_above _ _ 4,
      getLsbD_append_above _ _ 2, getLsbD_append_above _ _ 1, getLsbD_append_above _ _ 0, ofBool_getLsbD]
  · rw [getLsbD_append_above _ _ 5, getLsbD_append_above _ _ 4, getLsbD_append_above _ _ 3,
      getLsbD_append_above _ _ 1, getLsbD_append_above _ _ 0, getLsbD_append_ofBool]
  · rw [getLsbD_append_above _ _ 4, getLsbD_append_above _ _ 3, getLsbD_append_above _ _ 2,
      getLsbD_append_above _ _ 0, getLsbD_append_ofBool]
  · rw [extractLsb'_append_above _ _ 2, extractLsb'_append_above _ _ 1, extractLsb'_append_above _ _ 0,
      extractLsb'_append_low]
  · rw [getLsbD_append_above _ _ 0, getLsbD_append_ofBool]

/-- A FIELD entry reads back wherever it stands. -/
theorem fieldEntryAt_bytes {bytes : List Byte} {k : Nat} {e : FieldEntry}
    (h : (bytes.drop k).take 12 = fieldEntryBytes e) : fieldEntryAt bytes k = e := by
  have hat (j : Nat) (hj : j < 12) := byteAt_of_slice h hj
  have hkey : keyAt bytes (k + 4) = e.key := by
    have h4 := hat 4 (by decide)
    have h5 := hat 5 (by decide)
    have h6 := hat 6 (by decide)
    have hkey : keyAt bytes (k + 4) =
        byteAt bytes (k + 4) ++ byteAt bytes (k + 5) ++ byteAt bytes (k + 6) := rfl
    rw [hkey, h4, h5, h6]
    exact keyBytes_append e.key
  have hzero : byteAt bytes k = e.page.setWidth 8 := hat 0 (by decide)
  obtain ⟨h7, h6, h5, h3, h1, h0⟩ :=
    flagsOf_bits e.justifyRight e.plus e.grouping e.subst e.blink e.localMark (hat 11 (by decide))
  simp only [fieldEntryAt, hkey, hzero, h7, h6, h5, h3, h1, h0, hat 1 (by decide), hat 2 (by decide),
    hat 3 (by decide), hat 7 (by decide), hat 8 (by decide), hat 9 (by decide), hat 10 (by decide)]
  show FieldEntry.mk ((e.page.setWidth 8).extractLsb' 0 5) ((e.row.setWidth 8).extractLsb' 0 6) e.column
    ((e.width.setWidth 8).extractLsb' 0 6) e.key
    ((e.item ++ (0 : BitVec 1) ++ e.format).extractLsb' (3 + 1) 4)
    ((e.item ++ (0 : BitVec 1) ++ e.format).extractLsb' 0 3)
    (((0 : BitVec 1) ++ e.policy ++ e.param).extractLsb' (4 + 0) 3)
    (((0 : BitVec 1) ++ e.policy ++ e.param).extractLsb' 0 4) e.throttle
    (hiNibble (e.fg ++ e.bg)) (loNibble (e.fg ++ e.bg)) e.justifyRight e.plus e.grouping e.subst e.blink
    e.localMark = e
  rw [extractLsb'_setWidth _ (by decide), extractLsb'_setWidth _ (by decide),
    extractLsb'_setWidth _ (by decide), extractLsb'_append_above, extractLsb'_append_high,
    extractLsb'_append_low, extractLsb'_append_above, extractLsb'_append_low, extractLsb'_append_low,
    hiNibble_append, loNibble_append]

theorem readFieldRecord_bytes (r : FieldRecord) :
    readFieldRecord (bodyOf (fieldRecordBytes r)) = r := by
  have hfirst : fieldEntryAt (bodyOf (fieldRecordBytes r)) 3 = r.first := fieldEntryAt_bytes rfl
  have hsecond : fieldEntryAt (bodyOf (fieldRecordBytes r)) 15 = r.second := fieldEntryAt_bytes rfl
  rw [readFieldRecord, hfirst, hsecond]
  show FieldRecord.mk
    ((BitVec.ofBool r.atPointer ++ (0 : BitVec 6) ++ r.start.extractLsb' 8 1).getLsbD (1 + (6 + 0)))
    ((BitVec.ofBool r.atPointer ++ (0 : BitVec 6) ++ r.start.extractLsb' 8 1).extractLsb' 0 1
      ++ r.start.setWidth 8) r.count r.first r.second = r
  rw [extractLsb'_append_low, topBit_append, getLsbD_append_above, getLsbD_append_above, ofBool_getLsbD]

/-! ## The commands (R19 step 2, R21) -/

theorem rxOk_origin {rx : Rx} (h : rxOk rx = true) : rx.origin ≠ 0 := by
  simp only [rxOk, Bool.and_eq_true, decide_eq_true_eq] at h
  exact h.2

/-- A command's parcel has a whole body and is read back as the command. -/
theorem readKind_parcelFor {i : Instr} {rx : Rx} (hwf : i.wellFormed = true) (hrx : rxOf i = some rx) :
    rxOk rx = true ∧ ∃ kind sub body, parcelFor i = some (parcelOf rx kind sub body) ∧
      body.length ≤ 28 ∧ readKind rx kind sub (bodyOf body) = i := by
  cases i
  case goodParcelIgnored rx' kind =>
    obtain rfl := Option.some.inj hrx
    exact ⟨hwf, _, _, _, rfl, Nat.zero_le _, by cases kind <;> rfl⟩
  case commandBadCode rx' code =>
    obtain rfl := Option.some.inj hrx
    exact ⟨hwf, _, _, _, rfl, Nat.zero_le _, by cases code <;> rfl⟩
  case layoutBadKind rx' kind =>
    obtain rfl := Option.some.inj hrx
    exact ⟨hwf, _, _, _, rfl, Nat.zero_le _, by cases kind <;> rfl⟩
  case showPage | release | run | halt | freeze | thaw | override | crawlFlush | counterClear | layoutClear =>
    obtain rfl := Option.some.inj hrx
    exact ⟨hwf, _, _, _, rfl, Nat.le_of_ble_eq_true rfl, rfl⟩
  case presence rx' b =>
    obtain rfl := Option.some.inj hrx
    exact ⟨hwf, _, _, _, rfl, Nat.le_of_ble_eq_true rfl, congrArg _ (readPresence_bytes b)⟩
  case mark rx' sub key =>
    obtain rfl := Option.some.inj hrx
    exact ⟨hwf, _, _, _, rfl, Nat.le_of_ble_eq_true rfl, congrArg _ (keyAt_bytes key)⟩
  case handoff rx' b =>
    obtain rfl := Option.some.inj hrx
    exact ⟨hwf, _, _, _, rfl, Nat.le_of_ble_eq_true rfl, congrArg _ (readHandoff_bytes b)⟩
  case field rx' r =>
    obtain rfl := Option.some.inj hrx
    exact ⟨hwf, _, _, _, rfl, Nat.le_of_ble_eq_true rfl, congrArg _ (readFieldRecord_bytes r)⟩
  case window rx' r =>
    obtain rfl := Option.some.inj hrx
    exact ⟨hwf, _, _, _, rfl, Nat.le_of_ble_eq_true rfl, congrArg _ (readWindowRecord_bytes r)⟩
  case policy rx' r =>
    obtain rfl := Option.some.inj hrx
    exact ⟨hwf, _, _, _, rfl, Nat.le_of_ble_eq_true rfl, congrArg _ (readPolicyRecord_bytes r)⟩
  case palette rx' r =>
    obtain rfl := Option.some.inj hrx
    exact ⟨hwf, _, _, _, rfl, Nat.le_of_ble_eq_true rfl, congrArg _ (readPaletteRecord_bytes r)⟩
  case carousel rx' r =>
    obtain rfl := Option.some.inj hrx
    exact ⟨hwf, _, _, _, rfl, Nat.le_of_ble_eq_true rfl, congrArg _ (readCarouselRecord_bytes r)⟩
  case global rx' r =>
    obtain rfl := Option.some.inj hrx
    exact ⟨hwf, _, _, _, rfl, Nat.le_of_ble_eq_true rfl, congrArg _ (readGlobalRecord_bytes r)⟩
  case tick rx' b =>
    obtain rfl := Option.some.inj hrx
    obtain ⟨hok, hlen⟩ := Bool.and_eq_true_iff.mp hwf
    have hitems := of_decide_eq_true hlen
    refine ⟨hok, _, _, _, rfl, ?_, congrArg _ (readTick_bytes hitems)⟩
    simp [tickBytes, keyBytes, wordBytes, itemBytes, hitems]
  case label rx' r =>
    obtain rfl := Option.some.inj hrx
    obtain ⟨hok, hlen⟩ := Bool.and_eq_true_iff.mp hwf
    have hchars := of_decide_eq_true hlen
    refine ⟨hok, _, _, _, rfl, ?_, congrArg _ (readLabelRecord_bytes hchars)⟩
    simp [labelRecordBytes, wordBytes, hchars]
  case condlabel rx' r =>
    obtain rfl := Option.some.inj hrx
    obtain ⟨hok, hlen⟩ := Bool.and_eq_true_iff.mp hwf
    have hchars := of_decide_eq_true hlen
    refine ⟨hok, _, _, _, rfl, ?_, congrArg _ (readCondLabelRecord_bytes hchars)⟩
    simp [condLabelRecordBytes, hchars]
  case crawlprog rx' r =>
    obtain rfl := Option.some.inj hrx
    obtain ⟨hok, hlen⟩ := Bool.and_eq_true_iff.mp hwf
    have hchars := of_decide_eq_true hlen
    refine ⟨hok, _, _, _, rfl, ?_, congrArg _ (readCrawlProgRecord_bytes hchars)⟩
    simp [crawlProgRecordBytes, keyBytes, hchars]
  case crawltext rx' b =>
    obtain rfl := Option.some.inj hrx
    obtain ⟨hok, hlen⟩ := Bool.and_eq_true_iff.mp hwf
    have hchars := of_decide_eq_true hlen
    refine ⟨hok, _, _, _, rfl, ?_, congrArg _ (readCrawlText_bytes hchars)⟩
    simp [crawlTextBytes, hchars]
  all_goals cases hrx

/-- Settles O60: the frame and the CRC carry the command's body, which reads back as the command. -/
theorem parcelRoundTrip : Obligations.ParcelRoundTrip := by
  intro i rx hwf hrx
  obtain ⟨hok, kind, sub, body, hparcel, hlen, hread⟩ := readKind_parcelFor hwf hrx
  have hbody := length_bodyOf (bytes := body) rfl hlen
  refine ⟨(parcelOf rx kind sub body).bytes, by rw [encodeParcel, hparcel]; rfl, ?_,
    (decodeParcel_bytes rx.slot hbody (rxOk_origin hok)).trans hread⟩
  simp [Parcel.bytes, withCrc, Parcel.head, parcelOf, hbody]

end Sys2Proof

/-! PROOFS. Records that follow the layout's references, the crawl program and the global record (spec/04
section 4.1, spec/06 sections 6.7 and 6.8). -/

namespace Sys2Proof.Machine

/-! ## Keys settled one after another (R54 to R56) -/

/-- The record that a key has once its references are settled. -/
def State.settledRecord (s : State) (k : Key) : Option Record :=
  if refCount s.lay k = 0 then none
  else some { (s.record? k).getD (newRecord k (markCount s.ptb k) 0) with refs := refCount s.lay k }

theorem settleKey_tables (s : State) (k : Key) :
    (settleKey s k).lay = s.lay ∧ (settleKey s k).ptb = s.ptb :=
  ⟨read_of_frame State.lay (settleKey_frame s k) rfl, read_of_frame State.ptb (settleKey_frame s k) rfl⟩

theorem settleKey_settled {s : State} (k : Key) (ht : s.recordsTabled fun _ => True) (j : Key) :
    (settleKey s k).settledRecord j = s.settledRecord j := by
  obtain ⟨hlay, hptb⟩ := settleKey_tables s k
  unfold State.settledRecord
  rw [hlay, hptb, settleKey_record? s k j ht]
  split
  · rfl
  · next h0 =>
    by_cases hj : j = k
    · subst hj
      rw [if_pos rfl, if_neg h0]
      rfl
    · rw [if_neg hj]

theorem settleKeys_record? {keys : List Key} {s : State} (ht : s.recordsTabled fun _ => True) (j : Key) :
    (settleKeys keys s).record? j = if j ∈ keys then s.settledRecord j else s.record? j := by
  induction keys generalizing s with
  | nil => rfl
  | cons k keys ih =>
    have hcons : settleKeys (k :: keys) s = settleKeys keys (settleKey s k) := rfl
    rw [hcons, ih (settleKey_tabled True.rule k ht), settleKey_settled k ht]
    by_cases hj : j ∈ keys
    · rw [if_pos hj, if_pos (List.mem_cons_of_mem _ hj)]
    · rw [if_neg hj, settleKey_record? s k j ht]
      by_cases hjk : j = k
      · subst hjk
        rw [if_pos rfl, if_pos List.mem_cons_self]
        rfl
      · rw [if_neg hjk, if_neg fun h => (List.mem_cons.mp h).elim hjk hj]

/-- A key without a record and without references has no refresh request. -/
def State.unasked (s : State) (k : Key) : Prop :=
  s.record? k = none → refCount s.lay k = 0 → ∀ e ∈ s.dir.refresh, e.key ≠ k

theorem settleKey_refresh {s : State} {k : Key} (h : s.unasked k) :
    (settleKey s k).dir.refresh =
      s.dir.refresh.filter fun e => !(decide (e.key = k) && decide (refCount s.lay e.key = 0)) := by
  have hkeep (hn : refCount s.lay k ≠ 0) :
      s.dir.refresh.filter (fun e => !(decide (e.key = k) && decide (refCount s.lay e.key = 0))) =
        s.dir.refresh := by
    refine List.filter_eq_self.mpr fun e _ => ?_
    by_cases he : e.key = k <;> simp [he, hn]
  unfold settleKey
  dsimp only
  cases hr : s.record? k with
  | none =>
    dsimp only
    split
    · next hn =>
      refine (List.filter_eq_self.mpr fun e he => ?_).symm
      simp [h hr hn e he]
    · next hn => exact (hkeep hn).symm
  | some r =>
    dsimp only
    split
    · next hn =>
      refine List.filter_congr fun e _ => ?_
      by_cases he : e.key = k <;> simp [he, hn]
    · next hn => exact (hkeep hn).symm

theorem settleKey_unasked {s : State} {k j : Key} (ht : s.recordsTabled fun _ => True) (hk : s.unasked k)
    (hj : s.unasked j) : (settleKey s k).unasked j := by
  obtain ⟨hlay, -⟩ := settleKey_tables s k
  intro hnone hzero e he
  rw [hlay] at hzero
  rw [settleKey_refresh hk, List.mem_filter] at he
  obtain ⟨he, hkept⟩ := he
  rw [settleKey_record? s k j ht] at hnone
  by_cases hjk : j = k
  · rintro rfl
    simp [hjk, hjk ▸ hzero] at hkept
  · rw [if_neg hjk] at hnone
    exact hj hnone hzero e he

theorem settleKeys_refresh {keys : List Key} {s : State} (ht : s.recordsTabled fun _ => True)
    (h : ∀ k ∈ keys, s.unasked k) :
    (settleKeys keys s).dir.refresh =
      s.dir.refresh.filter fun e => !(decide (e.key ∈ keys) && decide (refCount s.lay e.key = 0)) := by
  induction keys generalizing s with
  | nil => exact (List.filter_eq_self.mpr fun e _ => by simp).symm
  | cons k keys ih =>
    have hk := h k List.mem_cons_self
    have hcons : settleKeys (k :: keys) s = settleKeys keys (settleKey s k) := rfl
    obtain ⟨hlay, -⟩ := settleKey_tables s k
    rw [hcons, ih (settleKey_tabled True.rule k ht)
      fun j hj => settleKey_unasked ht hk (h j (List.mem_cons_of_mem _ hj)),
      hlay, settleKey_refresh hk, List.filter_filter]
    refine List.filter_congr fun e _ => ?_
    by_cases hek : e.key = k <;> simp +contextual [hek]

theorem settleKeys_lay (keys : List Key) (s : State) : (settleKeys keys s).lay = s.lay :=
  read_of_frame State.lay (settleKeys_frame keys s) rfl

theorem State.recordsFollow.isSome {s t : State} {keys : List Key} (h : s.recordsFollow t keys) {k : Key}
    (hk : k ∈ keys) (hn : 0 < refCount t.lay k) : (t.record? k).isSome = true := by
  rw [h.1 k hk, if_neg hn.ne']
  rfl

/-- Keys settled in a layout that has changed, with the records those of the layout before: every key
that is settled had a record or is named now. -/
theorem settleKeys_follow {s u : State} {keys : List Key} (hm : s.recordsMatch)
    (hfields : Tab.rising u.lay.fields = true) (hprog : Tab.rising u.lay.prog = true)
    (hdir : u.dir = s.dir) (hptb : u.ptb.marks = s.ptb.marks)
    (hkeys : ∀ k ∈ keys, 0 < refCount s.lay k ∨ 0 < refCount u.lay k) :
    s.recordsFollow (settleKeys keys u) keys := by
  have hlay := settleKeys_lay keys u
  have hrec (k : Key) : u.record? k = s.record? k := by rw [State.record?, hdir]; rfl
  have hmark (k : Key) : markCount u.ptb k = markCount s.ptb k := by rw [markCount, hptb]; rfl
  obtain ⟨⟨-, -, h3, h4, h5⟩, -⟩ := recordsMatchBut_of_match hm
  have ht : u.recordsTabled fun _ => True :=
    ⟨hfields, hprog, hptb ▸ h3, hdir ▸ h4, hdir ▸ h5⟩
  refine ⟨fun k hk => ?_, fun k hk => ?_, ?_⟩
  · rw [settleKeys_record? ht, if_pos hk, hlay, State.settledRecord, hrec, hmark]
    rfl
  · rw [settleKeys_record? ht, if_neg hk, hrec]
  · rw [settleKeys_refresh ht fun k hk => ?_, hdir, hlay]
    intro hnone hzero
    rw [hrec] at hnone
    obtain ⟨-, -, -, -, -, hsome⟩ := hm
    obtain h | h := hkeys k hk
    · rw [← hsome k, hnone] at h
      cases h
    · omega

/-! ## The crawl program (R110) -/

theorem refCount_pos_of_prog {l : Lay} {i : Nat} {k : Key}
    (h : (Tab.get defaultProg i l.prog).key = some k) : 0 < refCount l k := by
  have hne : Tab.get defaultProg i l.prog ≠ defaultProg := by
    intro hd
    rw [hd] at h
    cases h
  have hmem := Tab.mem_of_get hne
  have : (i, Tab.get defaultProg i l.prog) ∈ l.prog.filter fun e => decide (e.2.key = some k) :=
    List.mem_filter.mpr ⟨hmem, by simp [h]⟩
  exact Nat.add_pos_right _ (List.length_pos_of_mem this)

/-- Naming one more key takes one more record at most. -/
theorem length_namedKeys_le {l m : Lay} {k : Key}
    (h : ∀ j, j ≠ k → 0 < refCount m j → 0 < refCount l j) :
    (namedKeys m).length ≤ (namedKeys l).length + 1 := by
  have hsub : namedKeys m ⊆ k.toNat :: namedKeys l := by
    intro n hn
    obtain ⟨j, rfl⟩ := exists_key_of_mem_namedKeys hn
    by_cases hj : j = k
    · rw [hj]
      exact List.mem_cons_self
    · exact List.mem_cons_of_mem _ ((mem_namedKeys l j).mpr (h j hj ((mem_namedKeys m j).mp hn)))
  exact ((nodup_namedKeys m).subperm hsub).length_le

/-- The entry that a CRAWLPROG record writes. -/
def writtenEntry (r : CrawlProgRecord) : ProgEntry :=
  { key := if r.keyPresent then some r.key else none, label := r.chars.take 8 }

/-- The layout once a CRAWLPROG record has written its entry. -/
def Lay.programmed (l : Lay) (r : CrawlProgRecord) : Lay :=
  { l with prog := Tab.put defaultProg r.entry.toNat (writtenEntry r) l.prog }

theorem get_programmed (l : Lay) (r : CrawlProgRecord) (i : Nat) :
    Tab.get defaultProg i (l.programmed r).prog =
      if i = r.entry.toNat then (writtenEntry r) else Tab.get defaultProg i l.prog := Tab.get_put _ _ _ _ _

theorem refCount_programmed {l : Lay} {r : CrawlProgRecord} {k : Key} (hr : Tab.rising l.prog = true)
    (hk : (writtenEntry r).key ≠ some k) (h : 0 < refCount (l.programmed r) k) : 0 < refCount l k := by
  by_cases hold : (Tab.get defaultProg r.entry.toNat l.prog).key = some k
  · exact refCount_pos_of_prog hold
  · rwa [Lay.programmed, refCount_prog hr hold hk] at h

theorem overFull_programmed {s : State} {r : CrawlProgRecord} (hm : s.recordsMatch)
    (hroom : s.dir.records.length < 256) : overFull (s.lay.programmed r) = false := by
  have hlen := (recordsMatchBut_of_match hm).length
  have hle : (namedKeys (s.lay.programmed r)).length ≤ (namedKeys s.lay).length + 1 := by
    refine length_namedKeys_le (k := r.key) fun j hj h => refCount_programmed hm.2.1 (fun hk => ?_) h
    unfold writtenEntry at hk
    split at hk
    · exact hj (Option.some.inj hk).symm
    · cases hk
  exact decide_eq_false (by unfold recordRoom; omega)

theorem takeProg_of_room {s : State} {r : CrawlProgRecord} (n : Station) (hm : s.recordsMatch)
    (hentry : r.entry.toNat ≤ 31) (hroom : s.dir.records.length < 256) :
    takeProg n r s =
      settleKeys ((s.progEntry r.entry.toNat).key.toList ++ (writtenEntry r).key.toList)
        (s.modLay fun _ => s.lay.programmed r) := by
  have hread : readProg r = some (r.entry.toNat, (writtenEntry r)) := by
    rw [readProg, readBelow_of_lt (Nat.lt_succ_of_le hentry)]
    rfl
  have hfull := overFull_programmed (r := r) hm hroom
  unfold Lay.programmed at hfull
  simp only [takeProg, hread, hfull, Bool.false_eq_true, if_false]
  rfl

/-! ## The global record (R95, R111) -/

theorem clampInterval_spec (v : Nat) :
    ∃ k, k ≤ 6 ∧ clampInterval v = 2 ^ k ∧ clampInterval v ≤ max 1 v ∧
      (k < 6 → v < 2 * clampInterval v) := by
  unfold clampInterval
  split
  · exact ⟨6, by omega, rfl, by omega, by omega⟩
  split
  · exact ⟨5, by omega, rfl, by omega, by omega⟩
  split
  · exact ⟨4, by omega, rfl, by omega, by omega⟩
  split
  · exact ⟨3, by omega, rfl, by omega, by omega⟩
  split
  · exact ⟨2, by omega, rfl, by omega, by omega⟩
  split
  · exact ⟨1, by omega, rfl, by omega, by omega⟩
  · exact ⟨0, by omega, rfl, by omega, by omega⟩

theorem limitDeadlines_record? (limit : Nat) (s : State) (k : Key) :
    (s.modDir (limitDeadlines limit)).record? k =
      (s.record? k).map fun r => if limit = 0 then { r with deadline := none } else r := by
  unfold State.record? limitDeadlines
  dsimp only [State.modDir]
  split
  · exact Tab.look_mapValues _ _ _
  · exact Option.map_id'.symm

/-- The state with the global record written, before the status row is rebuilt. -/
def State.globalWritten (s : State) (r : GlobalRecord) : State :=
  (s.modLay fun l => { l with global := readGlobal r }).modDir (limitDeadlines (readGlobal r).staleLimit)

theorem globalWritten_record? (s : State) (r : GlobalRecord) (k : Key) :
    (s.globalWritten r).record? k =
      (s.record? k).map fun x => if r.staleLimit = 0 then { x with deadline := none } else x := by
  have hzero : (readGlobal r).staleLimit = 0 ↔ r.staleLimit = 0 := by
    rw [← BitVec.toNat_inj]
    rfl
  refine (limitDeadlines_record? _ _ _).trans ?_
  simp only [hzero]
  rfl

/-- Settles O30: the keys of the old and the new entry are settled; the global record is read with its
clamps, and the status row is rebuilt where it has a text. -/
theorem programAndGlobalWritten : Obligations.ProgramAndGlobalWritten := by
  refine ⟨fun rx rec s hh ha hm hentry hroom => ?prog, fun rx rec s hh ha => ?global⟩
  case prog =>
    have hexec := exec_layout (i := .crawlprog rx rec) (fun _ => rfl) hh ha
    rw [takeProg_of_room (s := (s.arrived rx).claimed rx.origin) _ hm hentry hroom] at hexec
    refine ⟨_, hexec, ?_⟩
    have hkeys : (writtenEntry rec).key.toList = if rec.keyPresent then [rec.key] else [] := by
      unfold writtenEntry
      cases rec.keyPresent <;> rfl
    have hnamed (hpresent : rec.keyPresent = true) : 0 < refCount (s.lay.programmed rec) rec.key := by
      refine refCount_pos_of_prog (i := rec.entry.toNat) ?_
      rw [get_programmed, if_pos rfl, writtenEntry, hpresent]
      rfl
    have hfollow : s.recordsFollow
        (settleKeys ((s.progEntry rec.entry.toNat).key.toList ++ if rec.keyPresent then [rec.key] else [])
          (((s.arrived rx).claimed rx.origin).modLay fun _ => s.lay.programmed rec))
        ((s.progEntry rec.entry.toNat).key.toList ++ if rec.keyPresent then [rec.key] else []) := by
      refine settleKeys_follow hm hm.1 (Tab.rising_put _ _ _ hm.2.1) rfl rfl fun k hk => ?_
      obtain hk | hk := List.mem_append.mp hk
      · exact .inl (refCount_pos_of_prog (Option.mem_toList.mp hk))
      · split at hk
        · next hpresent =>
          rw [List.mem_singleton.mp hk]
          exact .inr (hnamed hpresent)
        · cases hk
    have hsome (hpresent : rec.keyPresent = true) := hfollow.isSome
      (List.mem_append_right _ (by rw [hpresent]; exact List.mem_singleton_self rec.key))
      (by rw [settleKeys_lay]; exact hnamed hpresent)
    rw [settleKeys_frame] at hfollow hsome
    rw [hkeys, settleKeys_frame]
    refine ⟨?_, fun i hi => ?_, fun hpresent => ?_, ?_, rfl, rfl, rfl⟩
    · exact (get_programmed _ _ _).trans (if_pos rfl)
    · exact (get_programmed _ _ _).trans (if_neg hi)
    · exact hsome hpresent
    · exact hfollow
  case global =>
    have hexec := exec_layout (i := .global rx rec) (fun _ => rfl) hh ha
    refine ⟨_, readGlobal rec, hexec, ?_⟩
    have hframe : takeGlobal rec ((s.arrived rx).claimed rx.origin) =
      refreshRow (((s.arrived rx).claimed rx.origin).globalWritten rec) := rfl
    have hrec (k : Key) := globalWritten_record? ((s.arrived rx).claimed rx.origin) rec k
    rw [hframe]
    by_cases hrow : s.straps.srow = false ∨ s.sts.text = []
    · rw [refreshRow_of_none (s := ((s.arrived rx).claimed rx.origin).globalWritten rec) hrow]
      refine ⟨rfl, rfl, rfl, rfl, rfl, rfl, clampInterval_spec _, rfl, rfl, rfl, hrec, rfl, rfl, rfl,
        fun hsrow htext => ?_, fun _ => ⟨rfl, rfl⟩⟩
      obtain h | h := hrow
      · rw [hsrow] at h
        cases h
      · exact absurd h htext
    · obtain ⟨hsrow, htext⟩ := not_or.mp hrow
      rw [refreshRow_of_text (s := ((s.arrived rx).claimed rx.origin).globalWritten rec)
        (Bool.not_eq_false _ ▸ hsrow) htext]
      exact ⟨rfl, rfl, rfl, rfl, rfl, rfl, clampInterval_spec _, rfl, rfl, rfl, hrec, rfl, rfl, rfl,
        fun _ _ => ⟨rfl, rfl, length_statusText _⟩, fun h => absurd h hrow⟩

end Sys2Proof.Machine

/-! PROOFS. LABEL records: the run written or deleted in the store, and the bursts that follow the
record on shown pages (spec/06_layout_records.md, R101 to R103). -/

namespace Sys2Proof.Machine

/-! ## What a hand-over lists -/

/-- Bursts for which there is room all join the list. -/
theorem handOver_cpl_of_le {bs : List Burst} {a : After} {u : State}
    (h : u.cpl.bursts.length + bs.length ≤ 1024) :
    (handOver bs a u).cpl = { u.cpl with bursts := u.cpl.bursts ++ closeLast a bs } := by
  obtain ⟨-, -, hhand⟩ | ⟨rfl, hhand⟩ | ⟨-, hgt, -⟩ := handOver_cases bs a u
  · rw [hhand]
    rfl
  · rw [hhand, read_of_frame State.cpl (runAfter_frame a u) rfl]
    simp only [closeLast, List.append_nil]
  · exact absurd h (not_le.mpr hgt)

/-- A hand-over that leaves the list short of its room has listed every burst. -/
theorem handOver_of_room {bs : List Burst} {a : After} {u : State} (hne : bs ≠ [])
    (h : (handOver bs a u).cpl.bursts.length < 1024) :
    handOver bs a u = listBursts (closeLast a bs) u := by
  obtain ⟨-, -, hhand⟩ | ⟨hnil, -⟩ | ⟨-, hgt, hhand⟩ := handOver_cases bs a u
  · exact hhand
  · exact absurd hnil hne
  · rw [hhand, read_of_frame State.cpl (runAfter_frame _ _) rfl] at h
    simp only [listBursts, State.modCpl, List.length_append, List.length_take] at h
    unfold burstRoom at h hgt
    omega

theorem closeLast_getLast? {a : After} {l : List Burst} (h : l ≠ []) :
    ∃ last, (closeLast a l).getLast? = some last ∧ last.after = a := by
  obtain ⟨l, b, rfl⟩ := (List.eq_nil_or_concat l).resolve_left h
  rw [List.concat_eq_append, closeLast_append, List.getLast?_concat]
  exact ⟨_, rfl, rfl⟩

/-- Closing the list changes a burst in nothing but what follows it. -/
theorem mem_closeLast_of_mem {a : After} {b : Burst} {l : List Burst} (h : b ∈ l) :
    ∃ x, { b with after := x } ∈ closeLast a l := by
  obtain ⟨l, c, rfl⟩ := (List.eq_nil_or_concat l).resolve_left (List.ne_nil_of_mem h)
  rw [List.concat_eq_append] at h ⊢
  rw [closeLast_append]
  obtain h | h := List.mem_append.mp h
  · exact ⟨b.after, List.mem_append_left _ h⟩
  · obtain rfl := List.mem_singleton.mp h
    exact ⟨a, List.mem_append_right _ (List.mem_singleton_self _)⟩

theorem closeLast_cons (a : After) (b : Burst) (l : List Burst) :
    ∃ x m, closeLast a (b :: l) = { b with after := x } :: m := by
  cases l with
  | nil => exact ⟨a, [], rfl⟩
  | cons c l => exact ⟨b.after, _, rfl⟩

/-! ## The repaints of label runs -/

theorem eachOnce_eq_singleton {l : List Nat} {p : Nat} (h : ∀ n ∈ l, n = p) (hne : l ≠ []) :
    eachOnce l = [p] := by
  obtain ⟨hnodup, hmem⟩ := eachOnce_spec l
  obtain ⟨n, hn⟩ := List.exists_mem_of_ne_nil l hne
  refine List.perm_singleton.mp ((List.perm_ext_iff_of_nodup hnodup (List.nodup_singleton p)).mpr fun m => ?_)
  rw [hmem, List.mem_singleton]
  exact ⟨h m, fun hm => hm ▸ h n hn ▸ hn⟩

theorem pageRepaints_of_hidden {s : State} {page : Nat} (h : s.showing page = none)
    (labels : Tab LabelRun) (regions : List Region) : pageRepaints s labels regions page = [] := by
  simp only [pageRepaints, h]

theorem pageRepaints_of_shown {s : State} {page w : Nat} {v : Window}
    (h : s.showing page = some (w, v)) (labels : Tab LabelRun) (regions : List Region) :
    pageRepaints s labels regions page = repaintRuns labels page v regions := by
  simp only [pageRepaints, h]

/-- With every region on one shown page, that page's runs are repainted and no other. -/
theorem repaints_of_one_page {s : State} {w : Nat} {v : Window} {labels : Tab LabelRun}
    {page : Nat} {regions : List Region} (hshow : s.showing page = some (w, v))
    (hpage : ∀ g ∈ regions, g.page = page) :
    (eachOnce (regions.map Region.page)).flatMap (pageRepaints s labels regions) =
      (labels.filter fun e =>
          decide (e.2.page = page ∧ e.2.row < v.height) && regions.any fun g =>
            decide (e.2.row = g.row ∧ e.2.column < g.column + g.length ∧
              g.column < e.2.column + e.2.glyphs.length)).map
        (fun e => labelBurst .layout v.top e.2) := by
  by_cases hnil : regions = []
  · subst hnil
    simp [eachOnce]
  · rw [eachOnce_eq_singleton (p := page) (by simpa using hpage) (by simpa using hnil),
      List.flatMap_cons, List.flatMap_nil, List.append_nil, pageRepaints_of_shown hshow, repaintRuns]
    refine congrArg _ (List.filter_congr fun e _ => Bool.eq_iff_iff.mpr ?_)
    simp only [Bool.and_eq_true, decide_eq_true_eq, List.any_eq_true, LabelRun.covers]
    constructor
    · rintro ⟨hon, g, hg, ⟨⟨-, hrow⟩, hl⟩, hr⟩
      exact ⟨hon, g, hg, hrow, hl, hr⟩
    · rintro ⟨hon, g, hg, hrow, hl, hr⟩
      exact ⟨hon, g, hg, ⟨⟨hon.1.trans (hpage g hg).symm, hrow⟩, hl⟩, hr⟩

/-! ## LABEL records (R101 to R103) -/

theorem glyph_eq (n : Nat) (c : BitVec 8) :
    BitVec.ofNat 1 n ++ c = BitVec.ofNat 9 (256 * n + c.toNat) := by
  apply BitVec.eq_of_toNat_eq
  rw [BitVec.toNat_append, ← Nat.shiftLeft_add_eq_or_of_lt c.isLt, BitVec.toNat_ofNat,
    BitVec.toNat_ofNat, Nat.shiftLeft_eq]
  have := c.isLt
  omega

/-- The run that a LABEL record asks for on a plane of some columns (R101). -/
def writtenRun (columns : Nat) (r : LabelRecord) : Option LabelRun :=
  if r.length = 0 then none
  else some
    { page := r.page.toNat, row := r.row.toNat, column := r.column.toNat
      glyphs := (r.chars.take (min (min r.length.toNat 20) (columns - r.column.toNat))).map
        (fun c => BitVec.ofNat 9 (256 * r.charset.toNat + c.toNat))
      fg := r.fg, bg := r.bg, blink := r.blink }

theorem readLabel_eq {columns : Nat} {r : LabelRecord} (hrun : r.run.toNat ≤ 255)
    (h : r.length = 0 ∨ r.charset.toNat ≤ 1 ∧ r.column.toNat < columns) :
    readLabel columns r = some (r.run.toNat, writtenRun columns r) := by
  by_cases hlen : r.length = 0
  · rw [readLabel, if_neg (not_lt.mpr hrun), if_pos hlen, writtenRun, if_pos hlen]
  · obtain ⟨hset, hcol⟩ := h.resolve_left hlen
    rw [readLabel_of_write hrun hlen hset hcol, writtenRun, if_neg hlen]
    simp only [glyph_eq]
    rfl

theorem labelChars_written {columns : Nat} {r : LabelRecord} {t : Tab LabelRun}
    (h : labelChars (Tab.erase r.run.toNat t) +
      min (min r.length.toNat 20) (columns - r.column.toNat) ≤ 2048) :
    labelChars (writeRunAt r.run.toNat (writtenRun columns r) t) ≤ labelRoom := by
  unfold writtenRun
  split
  · exact le_trans (Nat.le_add_right _ _) h
  · rw [labelChars_writeRunAt, List.length_map, List.length_take]
    unfold labelRoom
    omega

/-- The bursts of a LABEL record: the clear of the old run, then the repaints (R103). -/
def labelBursts (s : State) (old new : Option LabelRun) (labels : Tab LabelRun) : List Burst :=
  old.toList.flatMap (oldRunBurst s) ++
    (runPages old new).flatMap
      (pageRepaints s labels ((old.toList ++ new.toList).map LabelRun.region))

theorem takeLabel_of_room {s : State} {r : LabelRecord} (n : Station) (hrun : r.run.toNat ≤ 255)
    (h : r.length = 0 ∨ r.charset.toNat ≤ 1 ∧ r.column.toNat < cols s.straps)
    (hroom : labelChars (Tab.erase r.run.toNat s.lay.labels) +
      min (min r.length.toNat 20) (cols s.straps - r.column.toNat) ≤ 2048)
    {old new : Option LabelRun} (hold : old = Tab.look r.run.toNat s.lay.labels)
    (hnew : new = writtenRun (cols s.straps) r) {labels : Tab LabelRun}
    (hlabels : labels = writeRunAt r.run.toNat new s.lay.labels) :
    takeLabel n r s =
      handOver (labelBursts s old new labels)
        (.repaint ((old.toList ++ new.toList).map LabelRun.region))
        (s.modLay fun l => { l with labels := labels }) := by
  subst hold hnew hlabels
  simp only [takeLabel, readLabel_eq hrun h, if_neg (not_lt.mpr (labelChars_written hroom))]
  rfl

theorem look_writeRunAt (i j : Nat) (r : Option LabelRun) (t : Tab LabelRun) :
    Tab.look j (writeRunAt i r t) = if j = i then r else Tab.look j t := by
  cases r with
  | none => exact Tab.look_erase _ _ _
  | some r => exact Tab.look_insert _ _ _ _

section

variable {s : State} {old new : Option LabelRun} {labels : Tab LabelRun}

theorem labelBursts_of_hidden (hold : ∀ r, old = some r → s.showing r.page = none)
    (hnew : ∀ r, new = some r → s.showing r.page = none) : labelBursts s old new labels = [] := by
  refine List.append_eq_nil_iff.mpr ⟨List.flatMap_eq_nil_iff.mpr fun r hr => ?_,
    List.flatMap_eq_nil_iff.mpr fun p hp => ?_⟩
  · simp only [oldRunBurst, hold r (Option.mem_toList.mp hr)]
  · obtain ⟨r, hr, rfl⟩ := List.mem_map.mp ((eachOnce_spec _).2 p |>.mp hp)
    refine pageRepaints_of_hidden ?_ _ _
    obtain hr | hr := List.mem_append.mp hr
    · exact hold r (Option.mem_toList.mp hr)
    · exact hnew r (Option.mem_toList.mp hr)

theorem meetingFields_of_hidden {regions : List Region}
    (h : ∀ r ∈ regions, s.showing r.page = none) : meetingFields s regions = [] := by
  refine List.eq_nil_iff_forall_not_mem.mpr fun i hi => ?_
  obtain ⟨f, r, -, hr, hmeets⟩ := mem_meetingFields.mp hi
  simp only [meets, h r hr, Option.any_none, Bool.and_false, Bool.false_eq_true] at hmeets

theorem labelBursts_of_old {r : LabelRun} {w : Nat} {v : Window} (hold : old = some r)
    (hshow : s.showing r.page = some (w, v)) (hrow : r.row < v.height) :
    ∃ l, labelBursts s old new labels =
      clearBurst .labelClear v r.row r.column r.glyphs.length :: l := by
  subst hold
  have hclear : oldRunBurst s r = [clearBurst .labelClear v r.row r.column r.glyphs.length] := by
    simp only [oldRunBurst, hshow, hrow, if_true]
  refine ⟨(runPages (some r) new).flatMap
    (pageRepaints s labels (([r] ++ new.toList).map LabelRun.region)), ?_⟩
  simp only [labelBursts, Option.toList_some, List.flatMap_cons, List.flatMap_nil, hclear,
    List.cons_append, List.nil_append]

/-- The new run covers its own cells, so that its page's repaints hold it. -/
theorem mem_labelBursts {i : Nat} {r : LabelRun} {w : Nat} {v : Window} (hnew : new = some r)
    (hlabels : Tab.look i labels = some r) (hshow : s.showing r.page = some (w, v))
    (hrow : r.row < v.height) (hne : r.glyphs ≠ []) :
    labelBurst .layout v.top r ∈ labelBursts s old new labels := by
  subst hnew
  have hpage : r.page ∈ runPages old (some r) := by
    refine ((eachOnce_spec _).2 _).mpr (List.mem_map.mpr ⟨r, ?_, rfl⟩)
    exact List.mem_append_right _ (List.mem_singleton_self r)
  refine List.mem_append_right _ (List.mem_flatMap.mpr ⟨r.page, hpage, ?_⟩)
  rw [pageRepaints_of_shown hshow]
  refine List.mem_map.mpr ⟨(i, r), List.mem_filter.mpr ⟨Tab.mem_of_look hlabels, ?_⟩, rfl⟩
  have hpos := List.length_pos_of_ne_nil hne
  have hcovers : r.covers r.region = true := by
    have hcell : r.column < r.column + r.glyphs.length := Nat.lt_add_of_pos_right hpos
    simp only [LabelRun.covers, LabelRun.region, hcell, decide_true, Bool.and_self]
  simp only [hrow, decide_true, Bool.and_self, Bool.true_and, List.any_eq_true]
  exact ⟨r.region, List.mem_map_of_mem (List.mem_append_right _ (List.mem_singleton_self r)), hcovers⟩

theorem labelBursts_of_one_page {page w : Nat} {v : Window} (hshow : s.showing page = some (w, v))
    (hpage : ∀ r ∈ old.toList ++ new.toList, r.page = page) :
    labelBursts s old new labels =
      (old.toList.filter (fun r => decide (r.row < v.height))).map
          (fun r => clearBurst .labelClear v r.row r.column r.glyphs.length) ++
        (labels.filter fun e =>
          decide (e.2.page = page ∧ e.2.row < v.height) &&
            (old.toList ++ new.toList).any fun r =>
              decide (e.2.row = r.row ∧ e.2.column < r.column + r.glyphs.length ∧
                r.column < e.2.column + e.2.glyphs.length)).map
          (fun e => labelBurst .layout v.top e.2) := by
  have hclear : old.toList.flatMap (oldRunBurst s) =
      (old.toList.filter (fun r => decide (r.row < v.height))).map
        (fun r => clearBurst .labelClear v r.row r.column r.glyphs.length) := by
    cases old with
    | none => rfl
    | some r =>
      have hr : s.showing r.page = some (w, v) := by
        rw [hpage r List.mem_cons_self]
        exact hshow
      by_cases hrow : r.row < v.height
      · simp [oldRunBurst, hr, hrow]
      · simp [oldRunBurst, hr, hrow]
  have hregions : ∀ g ∈ (old.toList ++ new.toList).map LabelRun.region, g.page = page := by
    intro g hg
    obtain ⟨r, hr, rfl⟩ := List.mem_map.mp hg
    exact hpage r hr
  have hpages : runPages old new =
      eachOnce (((old.toList ++ new.toList).map LabelRun.region).map Region.page) := by
    rw [List.map_map]
    rfl
  rw [labelBursts, hclear, hpages, repaints_of_one_page hshow hregions]
  simp only [List.any_map]
  rfl

end

/-- What follows a LABEL record asks for paints alone. -/
theorem handOver_repaint_win (bs : List Burst) (regions : List Region) (u : State) :
    (handOver bs (.repaint regions) u).win = u.win := by
  obtain ⟨-, -, h⟩ | ⟨-, h⟩ | ⟨-, -, h⟩ := handOver_cases bs (.repaint regions) u <;> rw [h] <;> rfl

/-- Settles O27: the record's bursts are handed over behind the store as written. -/
theorem labelRecordWrites : Obligations.LabelRecordWrites := by
  intro rx rec s hh ha hrun hread hroom
  have hexec := exec_layout (i := .label rx rec) (fun _ => rfl) hh ha
  obtain ⟨old, hold⟩ : ∃ old, old = Tab.look rec.run.toNat s.lay.labels := ⟨_, rfl⟩
  obtain ⟨new, hnew⟩ : ∃ new, new = writtenRun (cols s.straps) rec := ⟨_, rfl⟩
  obtain ⟨labels, hlabels⟩ : ∃ labels, labels = writeRunAt rec.run.toNat new s.lay.labels := ⟨_, rfl⟩
  obtain ⟨regions, hregions⟩ : ∃ l, l = (old.toList ++ new.toList).map LabelRun.region := ⟨_, rfl⟩
  obtain ⟨u, hu⟩ : ∃ u, u = ((s.arrived rx).claimed rx.origin).modLay
    (fun l => { l with labels := labels }) := ⟨_, rfl⟩
  rw [takeLabel_of_room (s := (s.arrived rx).claimed rx.origin) _ hrun hread hroom hold hnew hlabels,
    ← hregions, ← hu] at hexec
  obtain ⟨bs, hbs⟩ : ∃ bs, bs = labelBursts ((s.arrived rx).claimed rx.origin) old new labels := ⟨_, rfl⟩
  rw [← hbs] at hexec
  have hlook (i : Nat) : Tab.look i labels = if i = rec.run.toNat then new else Tab.look i s.lay.labels := by
    rw [hlabels, look_writeRunAt]
  have hwritten : Tab.look rec.run.toNat labels = new := (hlook _).trans (if_pos rfl)
  have hcpl : u.cpl = s.cpl := by rw [hu]; rfl
  have hpnt : u.pnt = s.pnt := by rw [hu]; rfl
  have hframe := handOver_frame bs (.repaint regions) u
  have hlay : (handOver bs (.repaint regions) u).lay = { s.lay with labels := labels } := by
    rw [read_of_frame State.lay hframe rfl, hu]
    rfl
  have hlisted (hne : bs ≠ [])
      (hlen : (handOver bs (.repaint regions) u).cpl.bursts.length < 1024) :
      (handOver bs (.repaint regions) u).pnt = s.pnt ∧
        (handOver bs (.repaint regions) u).cpl.bursts =
          s.cpl.bursts ++ closeLast (.repaint regions) bs := by
    rw [handOver_of_room hne hlen, ← hpnt, ← hcpl]
    exact ⟨rfl, rfl⟩
  refine ⟨_, hexec, ?_⟩
  rw [hlay]
  simp only [hwritten, ← hold]
  refine ⟨hnew, fun i hi => (hlook i).trans (if_neg hi), trivial, ?_, ?_, ?_, ?_,
    fun hidden hwrites => ?hidden, fun r w v hr hshow hrow hlen => ?old,
    fun r w v hr hne hshow hrow hlen => ?new, fun page w v runs l hshow hruns hpage hl hfits => ?page⟩
  · rw [read_of_frame State.dir hframe rfl, hu]
    rfl
  · rw [handOver_repaint_win, hu]
    rfl
  · rw [read_of_frame State.crw hframe rfl, hu]
    rfl
  · rw [read_of_frame State.ptb hframe rfl, hu]
    rfl
  case hidden =>
    have hnone (r : LabelRun) (hr : new = some r) : s.showing r.page = none := by
      rw [hnew, writtenRun] at hr
      split at hr
      · cases hr
      · next hlen =>
        obtain rfl := Option.some.inj hr
        exact hwrites.resolve_left hlen
    have hnil : bs = [] := hbs.trans (labelBursts_of_hidden hidden hnone)
    have hmeeting : meetingFields u regions = [] := by
      refine meetingFields_of_hidden fun g hg => ?_
      rw [hregions] at hg
      obtain ⟨r, hr, rfl⟩ := List.mem_map.mp hg
      rw [hu]
      obtain hr | hr := List.mem_append.mp hr
      · exact hidden r (Option.mem_toList.mp hr)
      · exact hnone r (Option.mem_toList.mp hr)
    have hrun : handOver bs (.repaint regions) u = u.enqueue .repaint (meetingFields u regions) := by
      rw [hnil]
      simp [handOver, runAfter, listBursts, State.modCpl]
    rw [hrun, hmeeting]
    exact ⟨hcpl, hpnt⟩
  case old =>
    obtain ⟨m, hm⟩ := labelBursts_of_old (s := (s.arrived rx).claimed rx.origin) (new := new)
      (labels := labels) hr hshow hrow
    rw [← hbs] at hm
    obtain ⟨-, hbursts⟩ := hlisted (by rw [hm]; exact List.cons_ne_nil _ _) hlen
    obtain ⟨x, l, hclose⟩ := closeLast_cons (.repaint regions)
      (clearBurst .labelClear v r.row r.column r.glyphs.length) m
    rw [hbursts, hm, hclose]
    exact ⟨_, l, rfl, rfl, rfl, rfl, rfl⟩
  case new =>
    have hmem := mem_labelBursts (s := (s.arrived rx).claimed rx.origin) (old := old) hr
      (hwritten.trans hr) hshow hrow hne
    rw [← hbs] at hmem
    have hnil := List.ne_nil_of_mem hmem
    obtain ⟨hsame, hbursts⟩ := hlisted hnil hlen
    obtain ⟨x, hclose⟩ := mem_closeLast_of_mem (a := .repaint regions) hmem
    obtain ⟨last, hlast, hafter⟩ := closeLast_getLast? (a := .repaint regions) hnil
    refine ⟨hsame, _, last, hbursts, ⟨_, hclose, rfl, rfl, rfl, rfl⟩, hlast, ?_⟩
    rw [hafter, hregions, hr]
    rfl
  case page =>
    subst hruns
    have hone := labelBursts_of_one_page (s := (s.arrived rx).claimed rx.origin) (labels := labels)
      hshow hpage
    have hbl : bs = l := hbs.trans (hone.trans hl.symm)
    rw [handOver_cpl_of_le (by rw [hcpl, hbl]; exact hfits), hcpl, hbl, hregions]
    rfl

end Sys2Proof.Machine

/-! PROOFS. FIELD records: the windows and the Painter along a record's changes, the directory's room,
and the bursts of the fields unbound (spec/06_layout_records.md, R96 to R99). -/

namespace Sys2Proof.Machine

/-! ## The window that shows a page -/

/-- It is the first window that shows it. -/
theorem State.showing_eq_some_iff {s : State} (hr : Tab.rising s.win = true) {p w : Nat} {v : Window} :
    s.showing p = some (w, v) ↔ v = s.window w ∧ s.shows w p ∧ ∀ u, u < w → ¬ s.shows u p := by
  have hfirst {w : Nat} {v : Window} (h : s.showing p = some (w, v)) (u : Nat) (hu : u < w) :
      ¬ s.shows u p := by
    intro hs
    obtain ⟨-, before, after, hwin, hnone⟩ := List.find?_eq_some_iff_append.mp h
    have hmem : (u, s.window u) ∈ s.win := Tab.mem_of_get fun hd => by
      obtain ⟨-, hp⟩ := hs
      rw [State.window, hd] at hp
      cases hp
    rw [hwin, List.mem_append, List.mem_cons] at hmem
    obtain hmem | hmem | hmem := hmem
    · obtain ⟨hne, hp⟩ := hs
      simpa [hne, hp] using hnone _ hmem
    · obtain ⟨rfl, -⟩ := Prod.mk.injEq .. ▸ hmem
      exact lt_irrefl _ hu
    · have hpair := Tab.pairwise_keys hr
      rw [hwin, List.map_append, List.map_cons, List.pairwise_append] at hpair
      obtain ⟨-, hpair, -⟩ := hpair
      exact lt_asymm hu ((List.pairwise_cons.mp hpair).1 _ (List.mem_map_of_mem hmem))
  constructor
  · intro h
    obtain ⟨hs, hv, -⟩ := State.showing_eq_some hr h
    exact ⟨hv, hs, hfirst h⟩
  · rintro ⟨rfl, hs, hbefore⟩
    cases h : s.showing p with
    | none => exact absurd hs ((State.showing_eq_none_iff hr p).mp h w)
    | some e =>
      obtain ⟨hs', hv, -⟩ := State.showing_eq_some hr h
      have h1 : ¬ e.1 < w := fun hlt => hbefore _ hlt hs'
      have h2 : ¬ w < e.1 := fun hlt => hfirst h w hlt hs
      have hw : e.1 = w := by omega
      rw [← hw, ← hv]

/-- Windows that keep their pages show them as before. -/
theorem State.showing_congr {s t : State} (hs : Tab.rising s.win = true) (ht : Tab.rising t.win = true)
    (h : ∀ u p, t.shows u p ↔ s.shows u p) (p : Nat) :
    t.showing p = (s.showing p).map fun e => (e.1, t.window e.1) := by
  cases hp : s.showing p with
  | none => exact (State.showing_eq_none_iff ht p).mpr fun u hu =>
      (State.showing_eq_none_iff hs p).mp hp u ((h u p).mp hu)
  | some e =>
    obtain ⟨-, hshows, hfirst⟩ := (State.showing_eq_some_iff hs).mp hp
    exact (State.showing_eq_some_iff ht).mpr
      ⟨rfl, (h _ p).mpr hshows, fun u hu hu' => hfirst u hu ((h u p).mp hu')⟩

/-! ## Composes whose set has become empty -/

/-- A window with a compose of an empty set ended (R145). -/
def Window.settled (v : Window) : Window :=
  if v.compose = some (.fields []) then finishCompose v else v

theorem Window.settled_of_ne {v : Window} (h : v.compose ≠ some (.fields [])) : v.settled = v := if_neg h

theorem Window.settled_settled (v : Window) : v.settled.settled = v.settled := by
  by_cases h : v.compose = some (.fields [])
  · have hv : v.settled = finishCompose v := if_pos h
    rw [hv]
    exact Window.settled_of_ne nofun
  · rw [Window.settled_of_ne h, Window.settled_of_ne h]

theorem settleCompose_window (w u : Nat) (s : State) :
    (settleCompose w s).window u = if u = w then (s.window w).settled else s.window u := by
  unfold settleCompose Window.settled
  split
  · exact State.window_modWindow _ _ _ _
  · split
    · next hu => rw [hu]
    · rfl

theorem settleComposes_window {s : State} (h : ∀ u, 8 ≤ u → (s.window u).compose ≠ some (.fields []))
    (u : Nat) : (settleComposes s).window u = (s.window u).settled := by
  have hfold (l : List Nat) (s : State) : (l.foldl (fun s w => settleCompose w s) s).window u =
      if u ∈ l then (s.window u).settled else s.window u := by
    induction l generalizing s with
    | nil => rfl
    | cons w l ih =>
      rw [List.foldl_cons, ih, settleCompose_window]
      by_cases huw : u = w
      · subst huw
        simp [Window.settled_settled]
      · simp [huw]
  refine (hfold (List.range 8) s).trans ?_
  split
  · rfl
  · next hu => exact (Window.settled_of_ne (h u (by simpa using hu))).symm

theorem settleComposes_of_ne {s : State} (h : ∀ u, (s.window u).compose ≠ some (.fields [])) :
    settleComposes s = s := by
  have hfold (l : List Nat) : l.foldl (fun s w => settleCompose w s) s = s := by
    induction l with
    | nil => rfl
    | cons w l ih => rw [List.foldl_cons, settleCompose_of_ne (h w), ih]
  exact hfold _

/-! ## The windows along a change of an index (R144) -/

theorem unbindCompose_rising (i : Nat) {s : State} (h : Tab.rising s.win = true) :
    Tab.rising (unbindCompose i s).win = true := by
  unfold unbindCompose
  split
  · exact h
  · exact Tab.rising_put _ _ _ h

theorem unbindCompose_of_none {i : Nat} {s : State} (h : s.composingOf i = none) :
    unbindCompose i s = s := by rw [unbindCompose, h]

theorem unbindCompose_window {i w : Nat} {s : State} (h : s.composingOf i = some w) (u : Nat) :
    (unbindCompose i s).window u =
      if u = w then { s.window w with compose := (s.window w).compose.map (Compose.without i) }
      else s.window u := by
  rw [unbindCompose, h]
  exact State.window_modWindow _ _ _ _

/-- A window of an unbinding is as before, or its compose set has lost the index. -/
theorem unbindCompose_window_or (i : Nat) (s : State) (u : Nat) :
    (unbindCompose i s).window u = s.window u ∨
      (unbindCompose i s).window u =
        { s.window u with compose := (s.window u).compose.map (Compose.without i) } := by
  cases h : s.composingOf i with
  | none => exact .inl (by rw [unbindCompose_of_none h])
  | some w =>
    rw [unbindCompose_window h]
    by_cases hu : u = w
    · subst hu
      exact .inr (if_pos rfl)
    · exact .inl (if_neg hu)

/-- Settled, the windows of an unbinding are those of the report that the index is painted (R143). -/
theorem initialDone_window_settled {i : Nat} {s : State}
    (h : ∀ u, (s.window u).compose ≠ some (.fields [])) (u : Nat) :
    (initialDone i s).window u = ((unbindCompose i s).window u).settled := by
  cases hc : s.composingOf i with
  | none =>
    rw [initialDone_of_none hc, unbindCompose_of_none hc, Window.settled_of_ne (h u)]
  | some w =>
    have hdone : initialDone i s = settleCompose w (unbindCompose i s) := by
      rw [initialDone, unbindCompose, hc]
    rw [hdone, settleCompose_window]
    split
    · next hu => rw [hu]
    · next hu =>
      rw [unbindCompose_window hc, if_neg hu, Window.settled_of_ne (h u)]

theorem State.initialReported_of_window {s t t' : State} {i : Nat} (h : ∀ u, t'.window u = t.window u)
    (ht : s.initialReported t i) : s.initialReported t' i := by
  simpa only [State.initialReported, h] using ht

/-- An index that held no field changes nothing when it is unbound. -/
theorem unbind_of_none {i : Nat} {s : State} (h : Tab.look i s.lay.fields = none) : unbind i s = s := by
  rw [unbind, h]

theorem unbind_of_some {i : Nat} {s : State} {g : Field} (h : Tab.look i s.lay.fields = some g) :
    (unbind i s).win = (unbindCompose i s).win ∧ (unbind i s).pnt = unbindPaint i s.pnt := by
  have hcompose : unbindCompose i (s.modPnt (unbindPaint i)) =
      { unbindCompose i s with pnt := unbindPaint i s.pnt } := by
    unfold unbindCompose
    have hof : (s.modPnt (unbindPaint i)).composingOf i = s.composingOf i := rfl
    rw [hof]
    cases s.composingOf i <;> rfl
  rw [unbind, h]
  dsimp only
  rw [hcompose]
  exact ⟨rfl, rfl⟩

theorem bindField_window_of_shown {i w : Nat} {f : Field} {s : State} {v : Window}
    (h : s.showing f.page = some (w, v)) (hrow : f.row < v.height) (u : Nat) :
    (bindField i f s).window u =
      if u = w then { s.window w with compose := (s.window w).compose.map (Compose.with i) }
      else s.window u := by
  have hs : (s.modLay fun l => { l with fields := Tab.insert i f l.fields }).showing f.page =
    some (w, v) := h
  simp only [bindField, hs, if_pos hrow]
  exact State.window_modWindow _ _ _ _

theorem bindField_win_of_hidden {i : Nat} {f : Field} {s : State}
    (h : ∀ w v, s.showing f.page = some (w, v) → v.height ≤ f.row) : (bindField i f s).win = s.win := by
  unfold bindField
  dsimp only
  split
  · rfl
  · next w v hs => rw [if_neg (not_lt.mpr (h w v hs))]; rfl

/-- A window of a binding is as before, or its compose set has the index. -/
theorem bindField_window_or (i : Nat) (f : Field) (s : State) (u : Nat) :
    (bindField i f s).window u = s.window u ∨
      (bindField i f s).window u =
        { s.window u with compose := (s.window u).compose.map (Compose.with i) } := by
  by_cases h : ∃ w v, s.showing f.page = some (w, v) ∧ f.row < v.height
  · obtain ⟨w, v, hs, hrow⟩ := h
    rw [bindField_window_of_shown hs hrow]
    by_cases hu : u = w
    · subst hu
      exact .inr (if_pos rfl)
    · exact .inl (if_neg hu)
  · refine .inl ?_
    rw [State.window, bindField_win_of_hidden fun w v hs => not_lt.mp fun hrow => h ⟨w, v, hs, hrow⟩]
    rfl

/-- A window that has never been written has no compose after a change either. -/
theorem changeIndex_window_of_ge {s : State} (h : s.windowsAgree) (c : Nat × EntryRead) {u : Nat}
    (hu : 8 ≤ u) : ((changeIndex s c).window u).compose = none := by
  have hnone : (s.window u).compose = none := by
    rw [State.window_of_windowsAgree h (by omega)]
    rfl
  have hcompose (i : Nat) : ((unbindCompose i s).window u).compose = none := by
    obtain h | h := unbindCompose_window_or i s u <;> rw [h]
    · exact hnone
    · exact congrArg (Option.map (Compose.without i)) hnone
  have hunbind : ((unbind c.1 s).window u).compose = none := by
    cases hf : Tab.look c.1 s.lay.fields with
    | none => rwa [unbind_of_none hf]
    | some g =>
      rw [State.window, (unbind_of_some hf).1]
      exact hcompose _
  unfold changeIndex
  split
  · exact hunbind
  · next f _ =>
    obtain h | h := bindField_window_or c.1 f (unbind c.1 s) u <;> rw [h]
    · exact hunbind
    · exact congrArg (Option.map (Compose.with c.1)) hunbind

/-! ## The Painter along a change of an index (R98, R124) -/

theorem changeIndex_pnt (s : State) (c : Nat × EntryRead) :
    (changeIndex s c).pnt =
      if (Tab.look c.1 s.lay.fields).isSome = true then unbindPaint c.1 s.pnt else s.pnt := by
  have hunbind : (unbind c.1 s).pnt =
      if (Tab.look c.1 s.lay.fields).isSome = true then unbindPaint c.1 s.pnt else s.pnt := by
    cases h : Tab.look c.1 s.lay.fields with
    | none => rw [unbind_of_none h]; rfl
    | some g => exact (unbind_of_some h).2
  unfold changeIndex
  split
  · exact hunbind
  · rw [read_of_frame State.pnt (bindField_frame _ _ _) rfl]
    exact hunbind

theorem unbindBurst_eq (i : Nat) (b : PaintBurst) :
    unbindBurst i b =
      if b.index ≠ i then some b else if b.stage = .waiting then none
      else some { b with unbound := true } := by
  unfold unbindBurst
  by_cases h : b.index = i <;> simp [h]

/-! ## The directory's room (R54, R55, R98) -/

theorem refCount_pos_iff {l : Lay} {k : Key} :
    0 < refCount l k ↔ (∃ e ∈ l.fields, e.2.key = k) ∨ ∃ e ∈ l.prog, e.2.key = some k := by
  simp only [refCount, Nat.add_pos_iff_pos_or_pos, List.length_pos_iff_exists_mem, List.mem_filter,
    decide_eq_true_eq]

theorem refCount_pos_of_field {l : Lay} {i : Nat} {f : Field} (h : Tab.look i l.fields = some f) :
    0 < refCount l f.key := refCount_pos_iff.mpr (.inl ⟨_, Tab.mem_of_look h, rfl⟩)

theorem mem_foldl_changeTable {run : List (Nat × EntryRead)} {t : Tab Field} {e : Nat × Field}
    (h : e ∈ run.foldl changeTable t) : e ∈ t ∨ ∃ c ∈ run, c.2.key? = some e.2.key := by
  induction run generalizing t with
  | nil => exact .inl h
  | cons c run ih =>
    obtain h | ⟨d, hd, hkey⟩ := ih h
    · unfold changeTable at h
      split at h
      · exact .inl (Tab.mem_erase h).1
      · next f hf =>
        obtain rfl | h := Tab.mem_insert h
        · exact .inr ⟨c, List.mem_cons_self, by rw [hf]; rfl⟩
        · exact .inl h
    · exact .inr ⟨d, List.mem_cons_of_mem _ hd, hkey⟩

/-- The keys that a run of changes binds. -/
def boundKeys (run : List (Nat × EntryRead)) : List Key := run.filterMap fun c => c.2.key?

/-- A run of changes names at most the keys it binds beside those named before. -/
theorem length_namedKeys_changed (l : Lay) (run : List (Nat × EntryRead)) :
    (namedKeys { l with fields := run.foldl changeTable l.fields }).length ≤
      (namedKeys l).length + (boundKeys run).length := by
  have hsub : namedKeys { l with fields := run.foldl changeTable l.fields } ⊆
      namedKeys l ++ (boundKeys run).map BitVec.toNat := by
    intro n hn
    obtain ⟨k, rfl⟩ := exists_key_of_mem_namedKeys hn
    obtain ⟨e, he, rfl⟩ | hprog := refCount_pos_iff.mp ((mem_namedKeys _ _).mp hn)
    · obtain he | ⟨c, hc, hkey⟩ := mem_foldl_changeTable he
      · exact List.mem_append_left _
          ((mem_namedKeys _ _).mpr (refCount_pos_iff.mpr (.inl ⟨e, he, rfl⟩)))
      · exact List.mem_append_right _
          (List.mem_map_of_mem (List.mem_filterMap.mpr ⟨c, hc, hkey⟩))
    · exact List.mem_append_left _ ((mem_namedKeys _ _).mpr (refCount_pos_iff.mpr (.inr hprog)))
  have hlen := ((nodup_namedKeys _).subperm hsub).length_le
  rwa [List.length_append, List.length_map] at hlen

theorem overFull_changed {s : State} {run : List (Nat × EntryRead)} (hm : s.recordsMatch)
    (hroom : s.dir.records.length + (boundKeys run).length ≤ 256) :
    overFull { s.lay with fields := run.foldl changeTable s.lay.fields } = false := by
  have hlen := (recordsMatchBut_of_match hm).length
  have hle := length_namedKeys_changed s.lay run
  exact decide_eq_false (not_lt.mpr (hle.trans (hlen ▸ hroom)))

/-! ## A FIELD record taken -/

theorem takeField_of_fits {s : State} {r : FieldRecord} {l : List EntryRead} {start : Nat} (n : Station)
    (hread : readEntries (cols s.straps) r = some l)
    (hstart : start = if r.atPointer then s.lay.pointer else r.start.toNat)
    (hle : start + l.length ≤ 512) (hoverlap : overlaps s.lay.fields (fieldRun start l) = false)
    (hm : s.recordsMatch)
    (hroom : s.dir.records.length + (boundKeys (fieldRun start l)).length ≤ 256) :
    takeField n r s = commitFields (fieldRun start l) (start + l.length) s := by
  have hfrom : fieldStart s.lay r = start := hstart.symm
  simp only [takeField, hread, hfrom, if_neg (not_lt.mpr hle), hoverlap, overFull_changed hm hroom,
    Bool.false_eq_true, if_false]

/-- The state of a FIELD record taken, before its bursts are handed over. -/
def State.fieldsSettled (s : State) (run : List (Nat × EntryRead)) (pointer : Nat) : State :=
  settleKeys (runKeys s.lay.fields run)
    ((run.foldl changeIndex s).modLay fun l => { l with pointer := pointer })

section

variable (s : State) (run : List (Nat × EntryRead)) (pointer : Nat)

theorem commitFields_eq :
    commitFields run pointer s =
      settleComposes (handOver (runBursts s run) (.initial (runInitial s run))
        (s.fieldsSettled run pointer)) := rfl

theorem fieldsSettled_cpl : (s.fieldsSettled run pointer).cpl = s.cpl := by
  have hchanged : (run.foldl changeIndex s).cpl = s.cpl :=
    read_of_frame State.cpl (foldl_changeIndex_frame run s) rfl
  exact (read_of_frame State.cpl (settleKeys_frame _ _) rfl).trans hchanged

theorem fieldsSettled_pnt : (s.fieldsSettled run pointer).pnt = (run.foldl changeIndex s).pnt :=
  read_of_frame State.pnt (settleKeys_frame _ _) rfl

theorem fieldsSettled_win : (s.fieldsSettled run pointer).win = (run.foldl changeIndex s).win :=
  read_of_frame State.win (settleKeys_frame _ _) rfl

theorem commitFields_cpl :
    (commitFields run pointer s).cpl =
      (handOver (runBursts s run) (.initial (runInitial s run)) (s.fieldsSettled run pointer)).cpl :=
  read_of_frame State.cpl (settleComposes_frame _) rfl

theorem commitFields_pnt :
    (commitFields run pointer s).pnt =
      (handOver (runBursts s run) (.initial (runInitial s run)) (s.fieldsSettled run pointer)).pnt :=
  read_of_frame State.pnt (settleComposes_frame _) rfl

theorem commitFields_painted :
    (commitFields run pointer s).pnt =
      { (run.foldl changeIndex s).pnt with queue := (commitFields run pointer s).pnt.queue } := by
  rw [commitFields_pnt, handOver_pnt, fieldsSettled_pnt]

/-- What follows a FIELD record asks for paints alone. -/
theorem handOver_initial_win (bs : List Burst) (l : List Nat) (u : State) :
    (handOver bs (.initial l) u).win = u.win := by
  obtain ⟨-, -, h⟩ | ⟨-, h⟩ | ⟨-, -, h⟩ := handOver_cases bs (.initial l) u <;> rw [h] <;> rfl

theorem commitFields_window
    (h : ∀ u, 8 ≤ u → ((run.foldl changeIndex s).window u).compose ≠ some (.fields [])) (u : Nat) :
    (commitFields run pointer s).window u = ((run.foldl changeIndex s).window u).settled := by
  have hwin (u : Nat) : (handOver (runBursts s run) (.initial (runInitial s run))
      (s.fieldsSettled run pointer)).window u = (run.foldl changeIndex s).window u := by
    rw [State.window, handOver_initial_win, fieldsSettled_win]
    rfl
  rw [commitFields_eq, settleComposes_window fun u hu => by rw [hwin]; exact h u hu, hwin]

end

theorem State.recordsFollow.congr {s t : State} {keys keys' : List Key} (h : s.recordsFollow t keys)
    (hk : ∀ k, k ∈ keys' ↔ k ∈ keys) : s.recordsFollow t keys' := by
  obtain ⟨hin, hout, hrefresh⟩ := h
  refine ⟨fun k hk' => hin k ((hk k).mp hk'), fun k hk' => hout k (mt (hk k).mpr hk'), ?_⟩
  simpa only [hk] using hrefresh

/-- The records follow one entry of a FIELD record. -/
theorem commitFields_follow {s : State} (i : Nat) (e : EntryRead) (pointer : Nat) (hm : s.recordsMatch) :
    s.recordsFollow (commitFields [(i, e)] pointer s)
      (((Tab.look i s.lay.fields).map Field.key).toList ++ e.key?.toList) := by
  have hkeys : runKeys s.lay.fields [(i, e)] =
      ((Tab.look i s.lay.fields).map Field.key).toList ++ e.key?.toList := by
    simp only [runKeys, List.flatMap_cons, List.flatMap_nil, List.append_nil]
  have hlay := changeIndex_fields s (i, e)
  have hdir : (changeIndex s (i, e)).dir = s.dir :=
    read_of_frame State.dir (changeIndex_frame s (i, e)) rfl
  have hptb : (changeIndex s (i, e)).ptb = s.ptb :=
    read_of_frame State.ptb (changeIndex_frame s (i, e)) rfl
  have hfollow : s.recordsFollow (s.fieldsSettled [(i, e)] pointer)
      (runKeys s.lay.fields [(i, e)]) := by
    refine settleKeys_follow hm ?_ ?_ ?_ ?_ fun k hk => ?_
    · show Tab.rising (changeIndex s (i, e)).lay.fields = true
      rw [hlay]
      exact rising_foldl_changeTable [(i, e)] hm.1
    · show Tab.rising (changeIndex s (i, e)).lay.prog = true
      rw [hlay]
      exact hm.2.1
    · exact hdir
    · exact congrArg Ptb.marks hptb
    · rw [hkeys, List.mem_append, Option.mem_toList, Option.mem_toList] at hk
      obtain hk | hk := hk
      · obtain ⟨g, hg, rfl⟩ := Option.map_eq_some_iff.mp hk
        exact .inl (refCount_pos_of_field hg)
      · refine .inr ?_
        cases e with
        | delete => cases hk
        | bind f =>
          obtain rfl := Option.some.inj hk
          refine refCount_pos_of_field (i := i) ?_
          show Tab.look i (changeIndex s (i, .bind f)).lay.fields = some f
          rw [hlay]
          exact (look_changeTable s.lay.fields (i, .bind f) i).trans (if_pos rfl)
  rw [← hkeys, commitFields_eq, settleComposes_frame, handOver_frame]
  exact hfollow

end Sys2Proof.Machine

/-! PROOFS. FIELD records of one and of two entries (spec/06_layout_records.md, R96 to R99). -/

namespace Sys2Proof.Machine

/-! ## The windows of one change -/

theorem unbind_rising (i : Nat) {s : State} (h : Tab.rising s.win = true) :
    Tab.rising (unbind i s).win = true := by
  cases hf : Tab.look i s.lay.fields with
  | none => rwa [unbind_of_none hf]
  | some g =>
    rw [(unbind_of_some hf).1]
    exact unbindCompose_rising i h

/-- A window of an index unbound is as before, or its compose set has lost the index. -/
theorem unbind_window_or (i : Nat) (s : State) (u : Nat) :
    (unbind i s).window u = s.window u ∨
      (unbind i s).window u =
        { s.window u with compose := (s.window u).compose.map (Compose.without i) } := by
  cases hf : Tab.look i s.lay.fields with
  | none => exact .inl (by rw [unbind_of_none hf])
  | some g =>
    rw [State.window, (unbind_of_some hf).1]
    exact unbindCompose_window_or i s u

theorem unbind_showing (i : Nat) {s : State} (hr : Tab.rising s.win = true) (p : Nat) :
    (unbind i s).showing p = (s.showing p).map fun e => (e.1, (unbind i s).window e.1) := by
  refine State.showing_congr hr (unbind_rising i hr) (fun u q => ?_) p
  rw [State.shows, State.shows]
  obtain h | h := unbind_window_or i s u <;> rw [h]

section

variable {s : State} {i : Nat} {f : Field}

/-- The window that shows a page before an index is unbound shows it afterwards with the same height. -/
theorem unbind_showing_some {w : Nat} {v : Window} (hr : Tab.rising s.win = true)
    (h : s.showing f.page = some (w, v)) :
    (unbind i s).showing f.page = some (w, (unbind i s).window w) ∧
      ((unbind i s).window w).height = v.height := by
  obtain ⟨hv, -, -⟩ := (State.showing_eq_some_iff hr).mp h
  refine ⟨by rw [unbind_showing i hr, h]; rfl, ?_⟩
  rw [hv]
  obtain h | h := unbind_window_or i s w <;> rw [h]

/-- A binding to a visible field of a page in its FIELDS phase joins the compose set (R144). -/
theorem changeIndex_joins {w : Nat} {v : Window} {set : List Nat} (hr : Tab.rising s.win = true)
    (hshow : s.showing f.page = some (w, v)) (hrow : f.row < v.height)
    (hset : v.compose = some (.fields set)) :
    ∃ l, ((changeIndex s (i, .bind f)).window w).compose = some (.fields l) ∧ i ∈ l ∧
      ∀ j, j ≠ i → (j ∈ l ↔ j ∈ set) := by
  obtain ⟨hv, -, -⟩ := (State.showing_eq_some_iff hr).mp hshow
  obtain ⟨hshow', hheight⟩ := unbind_showing_some (i := i) hr hshow
  have hw := bindField_window_of_shown (i := i) hshow' (by rw [hheight]; exact hrow) w
  rw [if_pos rfl] at hw
  have hbound : (changeIndex s (i, .bind f)).window w = _ := hw
  rw [hbound]
  subst hv
  obtain h | h := unbind_window_or i s w
  · refine ⟨NatSet.insert i set, ?_, NatSet.mem_insert.mpr (.inl rfl), fun j hj => ?_⟩
    · rw [h, hset]
      rfl
    · rw [NatSet.mem_insert, or_iff_right hj]
  · refine ⟨NatSet.insert i (NatSet.remove i set), ?_, NatSet.mem_insert.mpr (.inl rfl), fun j hj => ?_⟩
    · rw [h, hset]
      rfl
    · rw [NatSet.mem_insert, or_iff_right hj, NatSet.mem_remove, and_iff_left hj]

/-- Any other binding leaves the windows as the unbinding has left them. -/
theorem changeIndex_stands (hw : s.windowsAgree)
    (h : ∀ w v, s.showing f.page = some (w, v) →
      v.height ≤ f.row ∨ v.state ≠ .composing ∨ v.compose = some .bursts) (u : Nat) :
    (changeIndex s (i, .bind f)).window u = (unbind i s).window u := by
  show (bindField i f (unbind i s)).window u = _
  cases hshow : s.showing f.page with
  | none =>
    rw [State.window, bindField_win_of_hidden fun w v hs => ?_]
    · rfl
    · rw [unbind_showing i hw.rising, hshow] at hs
      cases hs
  | some e =>
    obtain ⟨w, v⟩ := e
    obtain ⟨hv, -, -⟩ := (State.showing_eq_some_iff hw.rising).mp hshow
    obtain ⟨hshow', hheight⟩ := unbind_showing_some (i := i) hw.rising hshow
    by_cases hrow : f.row < v.height
    · have hcompose : v.compose = none ∨ v.compose = some .bursts := by
        obtain hle | hstate | hbursts := h w v hshow
        · exact absurd hrow (not_lt.mpr hle)
        · exact .inl ((hv ▸ hw.agrees w).2.1.mpr hstate)
        · exact .inr hbursts
      have hkept : ((unbind i s).window w).compose.map (Compose.with i) =
          ((unbind i s).window w).compose := by
        subst hv
        obtain hu | hu := unbind_window_or i s w <;> obtain hc | hc := hcompose <;> rw [hu, hc] <;> rfl
      rw [bindField_window_of_shown hshow' (by rw [hheight]; exact hrow)]
      split
      · next huw => rw [huw, hkept]
      · rfl
    · rw [State.window, bindField_win_of_hidden fun w' v' hs => ?_]
      · rfl
      · rw [hshow'] at hs
        obtain ⟨rfl, rfl⟩ := Prod.mk.inj (Option.some.inj hs)
        rw [hheight]
        exact not_lt.mp hrow

/-- Once settled, the windows of an index unbound are those of the report that it is painted. -/
theorem unbind_window_settled {g : Field} (h : ∀ u, (s.window u).compose ≠ some (.fields []))
    (hf : Tab.look i s.lay.fields = some g) (u : Nat) :
    ((unbind i s).window u).settled = (initialDone i s).window u := by
  rw [initialDone_window_settled h, State.window, (unbind_of_some hf).1]
  rfl

end

/-! ## The bursts of a record -/

theorem handOver_nil (a : After) (u : State) : handOver [] a u = runAfter a u := by
  simp [handOver, listBursts, State.modCpl]

theorem runBursts_of_none {s : State} {i : Nat} (e : EntryRead)
    (h : Tab.look i s.lay.fields = none) : runBursts s [(i, e)] = [] := by
  simp [runBursts, unboundFields, h, eachOnce]

theorem runBursts_of_shown {s : State} {i w : Nat} {v : Window} {g : Field} (e : EntryRead)
    (h : Tab.look i s.lay.fields = some g) (hshow : s.showing g.page = some (w, v))
    (hrow : g.row < v.height) :
    ∃ l, runBursts s [(i, e)] = clearBurst .fieldClear v g.row g.column g.width :: l := by
  have hgone : unboundFields s.lay.fields [(i, e)] = [g] := by simp [unboundFields, h]
  rw [runBursts, hgone]
  refine ⟨(eachOnce ([g].map Field.page)).flatMap
    (pageRepaints s s.lay.labels ([g].map Field.region)), ?_⟩
  simp only [List.flatMap_cons, List.flatMap_nil, unbindClear_shown hshow hrow, List.cons_append,
    List.nil_append]

theorem runInitial_bind (s : State) (i : Nat) (f : Field) :
    runInitial s [(i, .bind f)] = if (s.showing f.page).isSome then [i] else [] := by
  unfold runInitial
  cases h : (s.showing f.page).isSome <;> simp [EntryRead.field?, h]

/-- The clears of two fields of one shown page, then the runs that cover a cell of either (R99). -/
theorem runBursts_of_two {s : State} {i j w : Nat} {v : Window} {g h : Field} (a b : EntryRead)
    (hg : Tab.look i s.lay.fields = some g) (hh : Tab.look j s.lay.fields = some h)
    (hpage : g.page = h.page) (hshow : s.showing g.page = some (w, v)) (hgrow : g.row < v.height)
    (hhrow : h.row < v.height) :
    runBursts s [(i, a), (j, b)] =
      [g, h].map (fun f => clearBurst .fieldClear v f.row f.column f.width) ++
        ((s.lay.labels.filter fun e => decide (e.2.page = g.page) &&
          (decide (e.2.row = g.row ∧ e.2.column < g.column + g.width ∧
              g.column < e.2.column + e.2.glyphs.length) ||
            decide (e.2.row = h.row ∧ e.2.column < h.column + h.width ∧
              h.column < e.2.column + e.2.glyphs.length))).map Prod.snd).map
          (labelBurst .layout v.top) := by
  have hgone : unboundFields s.lay.fields [(i, a), (j, b)] = [g, h] := by simp [unboundFields, hg, hh]
  have hregions : ([g, h].map Field.page) = ([g, h].map Field.region).map Region.page := rfl
  have hone : ∀ r ∈ [g, h].map Field.region, r.page = g.page := by
    simp [Field.region, hpage]
  rw [runBursts, hgone, hregions, repaints_of_one_page hshow hone, List.map_map]
  refine congrArg₂ _ ?_ (congrArg _ (List.filter_congr fun e _ => Bool.eq_iff_iff.mpr ?_))
  · simp only [List.flatMap_cons, List.flatMap_nil, unbindClear_shown hshow hgrow,
      unbindClear_shown (hpage ▸ hshow) hhrow]
    rfl
  · simp only [List.map_cons, List.map_nil, List.any_cons, List.any_nil, Bool.or_false, Bool.and_eq_true,
      Bool.or_eq_true, decide_eq_true_eq, Field.region]
    constructor
    · rintro ⟨⟨hp, -⟩, hc⟩
      exact ⟨hp, hc⟩
    · rintro ⟨hp, hc⟩
      refine ⟨⟨hp, ?_⟩, hc⟩
      obtain ⟨hr, -⟩ | ⟨hr, -⟩ := hc
      · exact hr ▸ hgrow
      · exact hr ▸ hhrow

/-! ## The tests of a record of one entry -/

theorem readEntries_one {columns : Nat} {r : FieldRecord} {e : EntryRead} (hc : r.count = 1)
    (h : readEntry columns r.first = some e) : readEntries columns r = some [e] := by
  rw [readEntries, if_pos hc, h]
  rfl

theorem readEntries_two {columns : Nat} {r : FieldRecord} {a b : EntryRead} (hc : r.count = 2)
    (ha : readEntry columns r.first = some a) (hb : readEntry columns r.second = some b) :
    readEntries columns r = some [a, b] := by
  rw [readEntries, if_neg (by rw [hc]; decide), if_pos hc, ha, hb]
  rfl

theorem overlaps_bind {fields : Tab Field} {i : Nat} {f : Field} (hr : Tab.rising fields = true)
    (h : ∀ j g, Tab.look j fields = some g → j ≠ i → g.page = f.page → g.row = f.row →
      g.column + g.width ≤ f.column ∨ f.column + f.width ≤ g.column) :
    overlaps fields [(i, .bind f)] = false := by
  refine Bool.eq_false_iff.mpr fun hover => ?_
  simp only [overlaps, List.filterMap_cons, List.filterMap_nil, EntryRead.field?, Option.map_some,
    List.any_cons, List.any_nil, Bool.or_false, ne_eq, not_true_eq_false, decide_false, Bool.false_and,
    List.any_eq_true, List.mem_filter, Bool.not_eq_true', decide_eq_false_iff_not] at hover
  obtain ⟨⟨j, g⟩, ⟨hmem, hne⟩, hshare⟩ := hover
  simp only [sharesCell, Bool.and_eq_true, decide_eq_true_eq] at hshare
  obtain ⟨⟨⟨hp, hrow⟩, h1⟩, h2⟩ := hshare
  obtain h | h := h j g (Tab.look_of_mem hr hmem) (fun hj => hne hj.symm) hp.symm hrow.symm <;> omega

/-! ## One entry taken -/

section

variable (s : State) (i : Nat) (e : EntryRead) (pointer : Nat)

theorem commitOne_look (j : Nat) :
    Tab.look j (commitFields [(i, e)] pointer s).lay.fields =
      if j = i then e.field? else Tab.look j s.lay.fields := by
  rw [commitFields_lay]
  exact look_changeTable s.lay.fields (i, e) j

theorem commitOne_pnt :
    (commitFields [(i, e)] pointer s).pnt =
      { (if (Tab.look i s.lay.fields).isSome = true then unbindPaint i s.pnt else s.pnt) with
        queue := (commitFields [(i, e)] pointer s).pnt.queue } := by
  have hchange : ([(i, e)].foldl changeIndex s).pnt = _ := changeIndex_pnt s (i, e)
  conv_lhs => rw [commitFields_painted, hchange]

theorem commitOne_paintState {j : Nat} (h : j ≠ i) :
    (commitFields [(i, e)] pointer s).paintState j = s.paintState j := by
  rw [State.paintState, commitOne_pnt]
  split
  · show (Tab.look j (Tab.erase i s.pnt.states)).getD initialPaint = _
    rw [Tab.look_erase, if_neg h]
    rfl
  · rfl

/-- What an unbinding takes from the Painter (R98, R115, R124). -/
theorem commitOne_unpainted (h : (Tab.look i s.lay.fields).isSome = true) :
    (commitFields [(i, e)] pointer s).paintState i = initialPaint ∧
      (commitFields [(i, e)] pointer s).pnt.highlights =
        s.pnt.highlights.filter (fun h => decide (h.index ≠ i)) ∧
      (commitFields [(i, e)] pointer s).pnt.burst = s.pnt.burst.bind fun b =>
        if b.index ≠ i then some b else if b.stage = .waiting then none
        else some { b with unbound := true } := by
  rw [State.paintState, commitOne_pnt, if_pos h]
  refine ⟨?_, rfl, ?_⟩
  · show (Tab.look i (Tab.erase i s.pnt.states)).getD initialPaint = _
    rw [Tab.look_erase, if_pos rfl]
    rfl
  · show s.pnt.burst.bind (unbindBurst i) = _
    simp only [unbindBurst_eq]

theorem commitOne_window (hw : s.windowsAgree) (u : Nat) :
    (commitFields [(i, e)] pointer s).window u = ((changeIndex s (i, e)).window u).settled := by
  refine commitFields_window s [(i, e)] pointer (fun u hu => ?_) u
  show ((changeIndex s (i, e)).window u).compose ≠ _
  rw [changeIndex_window_of_ge hw _ hu]
  nofun

end

theorem commitOne_joins {s : State} {i : Nat} {f : Field} (pointer : Nat) (hw : s.windowsAgree) {w : Nat}
    {v : Window} {set : List Nat} (hshow : s.showing f.page = some (w, v)) (hrow : f.row < v.height)
    (hset : v.compose = some (.fields set)) :
    ∃ l, ((commitFields [(i, .bind f)] pointer s).window w).compose = some (.fields l) ∧ i ∈ l ∧
      ∀ j, j ≠ i → (j ∈ l ↔ j ∈ set) := by
  obtain ⟨l, hl, hi, hj⟩ := changeIndex_joins (i := i) hw.rising hshow hrow hset
  refine ⟨l, ?_, hi, hj⟩
  rw [commitOne_window _ _ _ _ hw, Window.settled_of_ne, hl]
  rw [hl]
  rintro h
  obtain rfl : l = [] := by simpa using h
  cases hi

/-- An index that leaves a compose set is reported as painted (R144, R145). -/
theorem commitOne_reported {s : State} {i : Nat} {e : EntryRead} {g : Field} (pointer : Nat)
    (hw : s.windowsAgree) (hno : ∀ w, (s.window w).compose ≠ some (.fields []))
    (hg : Tab.look i s.lay.fields = some g)
    (h : ∀ u, (changeIndex s (i, e)).window u = (unbind i s).window u) :
    s.initialReported (commitFields [(i, e)] pointer s) i := by
  refine State.initialReported_of_window (fun u => ?_) (initialDone_reported hw.rising i)
  rw [commitOne_window _ _ _ _ hw, h, unbind_window_settled hno hg]

/-- Without a field unbound nothing is listed and the new binding's paint is asked for at once. -/
theorem commitOne_of_none {s : State} {i : Nat} (e : EntryRead) (pointer : Nat)
    (h : Tab.look i s.lay.fields = none) :
    (commitFields [(i, e)] pointer s).cpl = s.cpl ∧
      (commitFields [(i, e)] pointer s).pnt =
        { s.pnt with queue := enqueueAll .initial (runInitial s [(i, e)]) s.pnt.queue } := by
  have hsettled : (s.fieldsSettled [(i, e)] pointer).pnt = s.pnt := by
    rw [fieldsSettled_pnt]
    exact (changeIndex_pnt s (i, e)).trans (if_neg (by rw [h]; nofun))
  rw [commitFields_cpl, commitFields_pnt, runBursts_of_none e h, handOver_nil]
  exact ⟨fieldsSettled_cpl s _ pointer, by rw [← hsettled]; rfl⟩

/-- The field unbound on a shown page is cleared first, and the last burst asks for the new paints. -/
theorem commitOne_bursts {s : State} {i w : Nat} {v : Window} {g : Field} (e : EntryRead) (pointer : Nat)
    (hg : Tab.look i s.lay.fields = some g) (hshow : s.showing g.page = some (w, v))
    (hrow : g.row < v.height)
    (hlen : (commitFields [(i, e)] pointer s).cpl.bursts.length < 1024) :
    ∃ b l last, (commitFields [(i, e)] pointer s).cpl.bursts = s.cpl.bursts ++ b :: l ∧
      (∃ x, b = { clearBurst .fieldClear v g.row g.column g.width with after := x }) ∧
      (commitFields [(i, e)] pointer s).cpl.bursts.getLast? = some last ∧
      last.after = .initial (runInitial s [(i, e)]) := by
  obtain ⟨m, hm⟩ := runBursts_of_shown e hg hshow hrow
  have hne : runBursts s [(i, e)] ≠ [] := by rw [hm]; exact List.cons_ne_nil _ _
  rw [commitFields_cpl] at hlen
  have hbursts : (commitFields [(i, e)] pointer s).cpl.bursts =
      s.cpl.bursts ++ closeLast (.initial (runInitial s [(i, e)])) (runBursts s [(i, e)]) := by
    rw [commitFields_cpl, handOver_of_room hne hlen, ← fieldsSettled_cpl s [(i, e)] pointer]
    rfl
  obtain ⟨last, hlast, hafter⟩ := closeLast_getLast? (a := .initial (runInitial s [(i, e)])) hne
  obtain ⟨x, l, hclose⟩ := closeLast_cons (.initial (runInitial s [(i, e)]))
    (clearBurst .fieldClear v g.row g.column g.width) m
  refine ⟨_, l, last, by rw [hbursts, hm, hclose], ⟨x, rfl⟩, ?_, hafter⟩
  rw [hbursts, List.getLast?_append, hlast]
  rfl

/-- Deleting at an index without a field moves the layout pointer alone. -/
theorem commitFields_delete_of_none {s : State} {i : Nat} (pointer : Nat)
    (h : Tab.look i s.lay.fields = none) (hno : ∀ w, (s.window w).compose ≠ some (.fields [])) :
    commitFields [(i, .delete)] pointer s = { s with lay := { s.lay with pointer := pointer } } := by
  have hkeys : runKeys s.lay.fields [(i, .delete)] = [] := by simp [runKeys, h, EntryRead.key?]
  have hsettled : s.fieldsSettled [(i, .delete)] pointer =
      { s with lay := { s.lay with pointer := pointer } } := by
    have hchange : [(i, EntryRead.delete)].foldl changeIndex s = s := unbind_of_none h
    rw [State.fieldsSettled, hkeys, hchange]
    rfl
  rw [commitFields_eq, hsettled, runBursts_of_none _ h, handOver_nil]
  exact settleComposes_of_ne hno

theorem commitFields_listed (s : State) (run : List (Nat × EntryRead)) (pointer : Nat) :
    (commitFields run pointer s).cpl =
      { s.cpl with bursts := (commitFields run pointer s).cpl.bursts } := by
  rw [commitFields_cpl, handOver_cpl, fieldsSettled_cpl]

section

variable {s : State} {rx : Rx} {r : FieldRecord} {start : Nat}

theorem exec_field_one {e : EntryRead} (hh : s.hears rx true) (ha : s.allows rx.origin)
    (hm : s.recordsMatch) (hstart : start = if r.atPointer then s.lay.pointer else r.start.toNat)
    (hlt : start < 512) (hcount : r.count = 1) (hentry : readEntry (cols s.straps) r.first = some e)
    (hover : overlaps s.lay.fields [(start, e)] = false)
    (hroom : s.dir.records.length + (boundKeys [(start, e)]).length ≤ 256) :
    exec (.field rx r) s =
      .next (commitFields [(start, e)] (start + 1) ((s.arrived rx).claimed rx.origin)) := by
  rw [exec_layout (i := .field rx r) (fun _ => rfl) hh ha,
    takeField_of_fits (s := (s.arrived rx).claimed rx.origin) _ (readEntries_one hcount hentry) hstart hlt
      hover hm hroom]
  rfl

theorem exec_field_two {a b : EntryRead} (hh : s.hears rx true) (ha : s.allows rx.origin)
    (hm : s.recordsMatch) (hstart : start = if r.atPointer then s.lay.pointer else r.start.toNat)
    (hle : start + 2 ≤ 512) (hcount : r.count = 2) (hreada : readEntry (cols s.straps) r.first = some a)
    (hreadb : readEntry (cols s.straps) r.second = some b)
    (hover : overlaps s.lay.fields [(start, a), (start + 1, b)] = false)
    (hroom : s.dir.records.length < 255) :
    exec (.field rx r) s =
      .next (commitFields [(start, a), (start + 1, b)] (start + 2) ((s.arrived rx).claimed rx.origin)) := by
  have hkeys : (boundKeys [(start, a), (start + 1, b)]).length ≤ 2 := List.length_filterMap_le _ _
  have hkeyed : s.dir.records.length + (boundKeys [(start, a), (start + 1, b)]).length ≤ 256 := by omega
  rw [exec_layout (i := .field rx r) (fun _ => rfl) hh ha,
    takeField_of_fits (s := (s.arrived rx).claimed rx.origin) _ (readEntries_two hcount hreada hreadb)
      hstart hle hover hm hkeyed]
  rfl

end

/-- Settles O26: the changes of the run are made, the records settled, and the bursts handed over. -/
theorem fieldRecordBinds : Obligations.FieldRecordBinds := by
  refine ⟨fun rx rec sel fmt sub start s hh ha hm hstart hlt hcount hwidth hcol hsel hfmt hsub hfree
      hroom => ?bind, fun rx rec start s hh ha hm hstart hlt hcount hwidth hroom hno => ?delete,
    fun rx rec a b start s hh ha hstart hlt hcount hreada hreadb hover hm hroom => ?two⟩
  case bind =>
    obtain ⟨f, hf⟩ : ∃ f : Field, f =
      { page := rec.first.page.toNat, row := rec.first.row.toNat, column := rec.first.column.toNat,
        width := min (min rec.first.width.toNat 40) (cols s.straps - rec.first.column.toNat),
        key := rec.first.key, selector := sel, format := fmt, right := rec.first.justifyRight,
        plus := rec.first.plus, grouping := rec.first.grouping,
        policy := rec.first.policy.toNat, throttle := rec.first.throttle.toNat, subst := sub,
        fg := rec.first.fg, bg := rec.first.bg, blink := rec.first.blink,
        localMark := rec.first.localMark } := ⟨_, rfl⟩
    have hentry : readEntry (cols s.straps) rec.first = some (.bind f) := by
      rw [readEntry, if_neg hwidth, readField, if_neg (not_le.mpr hcol), hsel, hfmt, hsub, hf]
      rfl
    have hover : overlaps s.lay.fields [(start, .bind f)] = false := by
      refine overlaps_bind hm.1 ?_
      rw [hf]
      exact hfree
    have hexec := exec_field_one hh ha hm hstart hlt hcount hentry hover hroom
    have hkey : rec.first.key = f.key := by rw [hf]
    have hpage : rec.first.page.toNat = f.page := by rw [hf]
    have hrow : rec.first.row.toNat = f.row := by rw [hf]
    rw [← hf]
    simp only [hkey, hpage, hrow]
    obtain ⟨t, ht⟩ : ∃ t, t = commitFields [(start, .bind f)] (start + 1)
      ((s.arrived rx).claimed rx.origin) := ⟨_, rfl⟩
    rw [← ht] at hexec
    have hframe := commitFields_frame [(start, .bind f)] (start + 1) ((s.arrived rx).claimed rx.origin)
    have hlook (j : Nat) : Tab.look j t.lay.fields =
        if j = start then some f else Tab.look j s.lay.fields := by
      rw [ht]
      exact commitOne_look _ start (.bind f) (start + 1) j
    have hbound := (hlook start).trans (if_pos rfl)
    have hlay : t.lay = { s.lay with fields := t.lay.fields, pointer := start + 1 } := by
      rw [ht, commitFields_lay]
      rfl
    have hfollow : s.recordsFollow t
        (((Tab.look start s.lay.fields).map Field.key).toList ++ [f.key]) := by
      rw [ht]
      exact commitFields_follow (s := (s.arrived rx).claimed rx.origin) start (.bind f) (start + 1) hm
    have hcpl : t.cpl = { s.cpl with bursts := t.cpl.bursts } := by
      rw [ht]
      exact commitFields_listed _ _ _
    have hinitial : runInitial ((s.arrived rx).claimed rx.origin) [(start, .bind f)] =
        if (s.showing f.page).isSome then [start] else [] := runInitial_bind _ start f
    rw [← ht] at hframe
    refine ⟨t, hexec, hbound, fun j hj => (hlook j).trans (if_neg hj), congrArg Lay.pointer hlay,
      congrArg Ptb.origin (read_of_frame State.ptb hframe rfl), ?_, ?_, fun hsome => ?_, fun j hj => ?_,
      fun hw hno => ⟨fun w v set hshow hin hset => ?_, fun hout => ⟨fun hnone x => ?_, fun hsome => ?_⟩⟩,
      fun hnone => ?_, fun g w v hg hshow hin hlen => ?_, ?_, ?_⟩
    · exact hfollow.isSome (List.mem_append_right _ (List.mem_singleton_self _))
        (refCount_pos_of_field hbound)
    · refine hfollow.congr fun k => ?_
      rw [List.mem_cons, List.mem_append, List.mem_singleton, or_comm]
    · rw [ht]
      exact commitOne_unpainted ((s.arrived rx).claimed rx.origin) start _ _ hsome
    · rw [ht]
      exact commitOne_paintState ((s.arrived rx).claimed rx.origin) start _ _ hj
    · rw [ht]
      exact commitOne_joins (s := (s.arrived rx).claimed rx.origin) _ hw hshow hin hset
    · rw [ht]
      refine (commitOne_window ((s.arrived rx).claimed rx.origin) _ _ _ hw x).trans ?_
      rw [changeIndex_stands (s := (s.arrived rx).claimed rx.origin) hw hout,
        unbind_of_none (s := (s.arrived rx).claimed rx.origin) hnone]
      exact Window.settled_of_ne (hno x)
    · obtain ⟨g, hg⟩ := Option.isSome_iff_exists.mp hsome
      rw [ht]
      exact commitOne_reported (s := (s.arrived rx).claimed rx.origin) _ hw hno hg
        (changeIndex_stands (s := (s.arrived rx).claimed rx.origin) hw hout)
    · obtain ⟨hlisted, hpnt⟩ := commitOne_of_none (s := (s.arrived rx).claimed rx.origin) (.bind f)
        (start + 1) hnone
      rw [← ht] at hlisted hpnt
      rw [hinitial] at hpnt
      refine ⟨hlisted, fun hhidden => ?_, fun hshown => ?_⟩
      · rw [hpnt, hhidden]
        rfl
      · rw [hpnt, if_pos hshown]
        exact exists_initial_enqueueAll (List.mem_singleton_self start)
    · have hbursts := commitOne_bursts (s := (s.arrived rx).claimed rx.origin) (.bind f) (start + 1)
        hg hshow hin
      rw [← ht, hinitial] at hbursts
      obtain ⟨b, l, last, hlisted, ⟨x, rfl⟩, hlast, hafter⟩ := hbursts hlen
      exact ⟨_, l, last, hlisted, rfl, rfl, rfl, rfl, hlast, hafter⟩
    · rw [hlay]
    · rw [← hcpl]
      exact hframe
  case delete =>
    have hentry : readEntry (cols s.straps) rec.first = some .delete := if_pos hwidth
    have hexec := exec_field_one hh ha hm hstart hlt hcount hentry rfl hroom
    obtain ⟨t, ht⟩ : ∃ t, t = commitFields [(start, .delete)] (start + 1)
      ((s.arrived rx).claimed rx.origin) := ⟨_, rfl⟩
    rw [← ht] at hexec
    have hlook (j : Nat) : Tab.look j t.lay.fields =
        if j = start then none else Tab.look j s.lay.fields := by
      rw [ht]
      exact commitOne_look _ start .delete (start + 1) j
    refine ⟨t, hexec, (hlook start).trans (if_pos rfl), fun j hj => (hlook j).trans (if_neg hj), ?_,
      fun g hg => ?_, fun hnone => ?_, ?_⟩
    · rw [ht, commitFields_lay]
      rfl
    · have hfollow : s.recordsFollow t [g.key] := by
        have h := commitFields_follow (s := (s.arrived rx).claimed rx.origin) start .delete (start + 1) hm
        rw [← ht] at h
        refine State.recordsFollow.congr (s := s) h fun k => ?_
        show _ ↔ k ∈ ((Tab.look start s.lay.fields).map Field.key).toList ++ []
        rw [hg]
        rfl
      obtain ⟨hrecord, -⟩ := id hfollow
      refine ⟨?_, fun hzero => ?_, hfollow, fun hw => ?_⟩
      · rw [ht]
        exact (commitOne_unpainted ((s.arrived rx).claimed rx.origin) start .delete (start + 1)
          (Option.isSome_iff_exists.mpr ⟨g, hg⟩)).1
      · rw [hrecord g.key (List.mem_singleton_self _), if_pos hzero]
      · rw [ht]
        exact commitOne_reported (s := (s.arrived rx).claimed rx.origin) _ hw hno hg fun _ => rfl
    · rw [ht]
      exact commitFields_delete_of_none (s := (s.arrived rx).claimed rx.origin) _ hnone hno
    · rw [ht]
      exact read_of_frame State.sts (commitFields_frame _ _ _) rfl
  case two =>
    have hexec := exec_field_two hh ha hm hstart hlt hcount hreada hreadb hover hroom
    obtain ⟨t, ht⟩ : ∃ t, t = commitFields [(start, a), (start + 1, b)] (start + 2)
      ((s.arrived rx).claimed rx.origin) := ⟨_, rfl⟩
    rw [← ht] at hexec
    have hfields : t.lay = { s.lay with
        fields := changeTable (changeTable s.lay.fields (start, a)) (start + 1, b)
        pointer := start + 2 } := by
      rw [ht, commitFields_lay]
      rfl
    have hlook (j : Nat) : Tab.look j t.lay.fields =
        if j = start + 1 then b.field? else if j = start then a.field? else Tab.look j s.lay.fields := by
      rw [hfields, ← look_changeTable _ (start, a), ← look_changeTable _ (start + 1, b)]
    refine ⟨t, hexec, ?_, ?_, fun j hj hj' => ?_, fun g h w v l hg hh' hpage hshow hgrow hhrow hl hle => ?_, ?_, ?_⟩
    · rw [hlook, if_neg (by omega), if_pos rfl]
    · rw [hlook, if_pos rfl]
    · rw [hlook, if_neg hj', if_neg hj]
    · have hbursts := runBursts_of_two (s := (s.arrived rx).claimed rx.origin) a b hg hh' hpage hshow
        hgrow hhrow
      subst hl
      rw [ht, commitFields_cpl, handOver_cpl_of_le, hbursts, fieldsSettled_cpl]
      · rfl
      · rw [hbursts, fieldsSettled_cpl, List.length_append, List.length_map, List.length_map, ← Nat.add_assoc]
        exact hle
    · rw [hfields]
    · rw [ht]
      exact read_of_frame State.sts (commitFields_frame _ _ _) rfl

end Sys2Proof.Machine
